-- ==== Sys2Proof/Word.lean ====
section
/-!
DEFINITION. The word types of the ADSP-218x and their plainest arithmetic (00_scope.md rules R6, R7).
-/

namespace Sys2Proof

/-- A 16-bit data word (20_memory.md R100). -/
abbrev Word := BitVec 16

/-- A 24-bit Program Memory word, the size of one instruction (30_encoding.md R160). -/
abbrev PmWord := BitVec 24

/-- A 14-bit Program or Data Memory address (20_memory.md R100). -/
abbrev Addr := BitVec 14

/-- An 8-bit byte of Byte Memory (20_memory.md R100). -/
abbrev Byte := BitVec 8

end Sys2Proof
end

