-- ==== Sys2Proof/Config.lean ====
section
/-!
DEFINITION. What an implementation fixes: the family member and its parameters (00_scope.md R5), the readings the
spec leaves as parameters (93_implementation_defined.md section 2), and the free values.
-/

namespace Sys2Proof

/-- The 19 family members of 00_scope.md R1. -/
inductive Member where
  | adsp2181 | adsp2183
  | adsp2184 | adsp2184L | adsp2184N
  | adsp2185 | adsp2185L | adsp2185M | adsp2185N
  | adsp2186 | adsp2186L | adsp2186M | adsp2186N
  | adsp2187L | adsp2187N
  | adsp2188M | adsp2188N
  | adsp2189M | adsp2189N
  deriving DecidableEq, Repr

/-- The parameters of one model instance (93_implementation_defined.md section 2). They never change as the machine
runs; statements quantify over them. -/
structure Cfg where
  /-- The family member (R5). -/
  member : Member
  /-- STS_DEPTH, the depth of the status stack (92_eei_decisions.md D1, OPEN). -/
  stsDepth : Nat
  /-- ALU_SAT_FLAGS_FROM_SATURATED (40_alu.md R264, D18). -/
  aluSatFlags : Bool
  /-- MAC_UU_SIGN_EXTENDS_P (41_mac.md R282, D25). -/
  macUUSignExt : Bool
  /-- TYPE1_LOADS_PX (46_multifunction.md R496, D32). -/
  type1LoadsPx : Bool
  /-- CALL_NOT_CE_DECREMENTS (44_program_flow.md R412, D27). -/
  callNotCeCounts : Bool
  /-- GO_MODE_BDMA_HALTS_CORE (70_reset_and_hazards.md R731, U70; timing only). -/
  goModeBdmaHalts : Bool
  deriving DecidableEq, Repr

/-- The uses a free value is drawn for; two uses in one step never share a value. -/
inductive FreeSlot where
  | pcPop | cntrPop | stsAstat | stsMstat | stsImask
  | flagBits | doubleDest | nextAddr
  | readAbsent | readReserved | ioRead | icntlBit | fiSample | intLatch
  | loopDecision | cntr | pcStackN | pcStackOvf | pcStackEntry | pc
  | countStackN | countStackOvf | countStackEntry
  | loopStackN | loopStackOvf | loopStackEntry
  | divResult | biad | bead | txUpper | companded | idmaRead | idmaControl | idmaSwitch
  | sstat | ceExit | resetReg | serialWord
  deriving DecidableEq, Repr

/-- A value the spec leaves open ("any value"): `w` bits, for the `n`-th step of the run, use `k`, item `j`. It has no
body, so nothing can be proved of it and every theorem holds for all its values (93_implementation_defined.md). -/
opaque Config.free (w n : Nat) (k : FreeSlot) (j : Nat) : BitVec w

end Sys2Proof
end

