-- ==== Sys2Proof/Syntax.lean ====
section
/-!
DEFINITION. The instructions: one constructor of `Instr` per row of spec/opcode_table.json, in the table's order, over
the field types of 30_encoding.md section 5. Meanings are in Machine/, words in Decode.lean.
-/

namespace Sys2Proof

/-- Where an ALU or MAC result goes: field Z of 30_encoding.md R178. -/
inductive Dest where
  | result | feedback
  deriving DecidableEq, Repr

/-- The X operand of the ALU and the MAC (30_encoding.md R173). -/
inductive Xop where
  | x0 | x1 | ar | mr0 | mr1 | mr2 | sr0 | sr1
  deriving DecidableEq, Repr

/-- The X operand of the shifter; code 001 is invalid (30_encoding.md R173). -/
inductive ShXop where
  | si | ar | mr0 | mr1 | mr2 | sr0 | sr1
  deriving DecidableEq, Repr

/-- The Y operand (30_encoding.md R174). -/
inductive Yop where
  | y0 | y1 | f | zero
  deriving DecidableEq, Repr

/-- A Y operand that is a register: the codes 00, 01 and 10 of 30_encoding.md R174. -/
inductive YReg where
  | y0 | y1 | f
  deriving DecidableEq, Repr

/-- The Y operands DIVS permits: AY1 and AF (40_alu.md R258). -/
inductive DivY where
  | ay1 | af
  deriving DecidableEq, Repr

/-- The conditions of 30_encoding.md R176, in the order of their codes. -/
inductive Cond where
  | eq | ne | gt | le | lt | ge | av | notAv | ac | notAc | neg | pos | mv | notMv | notCe | always
  deriving DecidableEq, Repr

/-- The DO UNTIL termination conditions of 30_encoding.md R177, in the order of their codes. -/
inductive Term where
  | ne | eq | le | gt | ge | lt | notAv | av | notAc | ac | pos | neg | notMv | mv | ce | forever
  deriving DecidableEq, Repr

/-- The ALU function codes 10000 to 11111 of 30_encoding.md R175; `code` is their low four bits. -/
inductive AluFn where
  | passY | incY | addC | add | notY | negY | subBorrow | sub | decY | rsub | rsubBorrow | notX | and | or
  | xor | abs
  deriving DecidableEq, Repr

/-- The MAC function codes 00001 to 01111 of 30_encoding.md R175. -/
inductive MacFn where
  | mulRnd | addRnd | subRnd | mulSS | mulSU | mulUS | mulUU | addSS | addSU | addUS | addUU | subSS | subSU
  | subUS | subUU
  deriving DecidableEq, Repr

/-- The shifter function codes of 30_encoding.md R179. -/
inductive ShiftFn where
  | lshiftHi | lshiftHiOr | lshiftLo | lshiftLoOr | ashiftHi | ashiftHiOr | ashiftLo | ashiftLoOr | normHi
  | normHiOr | normLo | normLoOr | expHi | expHix | expLo | expAdj
  deriving DecidableEq, Repr

/-- The sixteen data registers (30_encoding.md R171). -/
inductive Dreg where
  | ax0 | ax1 | mx0 | mx1 | ay0 | ay1 | my0 | my1 | si | se | ar | mr0 | mr1 | mr2 | sr0 | sr1
  deriving DecidableEq, Repr

/-- The Data Memory destinations of Type 1: field DD of 30_encoding.md R178. -/
inductive DmDst where
  | ax0 | ax1 | mx0 | mx1
  deriving DecidableEq, Repr

/-- The Program Memory destinations of Type 1: field PD of 30_encoding.md R178. -/
inductive PmDst where
  | ay0 | ay1 | my0 | my1
  deriving DecidableEq, Repr

/-- A mode control pair of Type 18 (30_encoding.md R178); codes 00 and 01 both mean no change. -/
inductive ModeOp where
  | keep0 | keep1 | disable | enable
  deriving DecidableEq, Repr

/-- The operation on one flag output: field FO of 30_encoding.md R178. -/
inductive FlagOp where
  | keep | toggle | reset | set
  deriving DecidableEq, Repr

/-- The status stack operation: field Spp of 30_encoding.md R178; codes 00 and 01 both mean no change. -/
inductive StsOp where
  | keep0 | keep1 | push | pop
  deriving DecidableEq, Repr

/-- The divisors of IDLE (n): field DV of 30_encoding.md R178. -/
inductive SlowDiv where
  | by16 | by32 | by64 | by128
  deriving DecidableEq, Repr

/-- The registers a move can name (30_encoding.md R172). `i`, `m` and `l` carry the DAG register number 0 to 7; the
serial port registers carry the port. -/
inductive Reg where
  | d (r : Dreg)
  | i (n : Fin 8) | m (n : Fin 8) | l (n : Fin 8)
  | pmovlay | dmovlay
  | astat | mstat | sstat | imask | icntl | cntr | sb | px
  | rx0 | tx0 | rx1 | tx1
  | ifc | owrcntr
  deriving DecidableEq, Repr

/-- The ALU constants of 30_encoding.md R170: bit `n` alone, or its ones complement. -/
structure Const where
  n : Fin 16
  compl : Bool
  deriving DecidableEq, Repr

/-- The computation of a multifunction word: AMF, Yop and Xop with AMF not 00000 (30_encoding.md R175). -/
inductive Comp where
  | alu (fn : AluFn) (y : Yop) (x : Xop)
  | mac (fn : MacFn) (y : Yop) (x : Xop)
  deriving DecidableEq, Repr

/-- The instructions. A `Bool` named `g` is the field G (`true` is DAG2); two-bit `i` and `m` are the fields I and M
within that DAG. -/
inductive Instr where
  /-- `[IF cond] AR|AF = PASS 0` (Type 9 register form, Yop = 11). -/
  | aluPassZero (z : Dest) (x : Xop) (c : Cond)
  /-- `[IF cond] AR|AF = PASS yop` (Type 9 register form). -/
  | aluPassY (z : Dest) (y : YReg) (x : Xop) (c : Cond)
  /-- `[IF cond] AR|AF = PASS 1` (Type 9 register form, Yop = 11). -/
  | aluPassOne (z : Dest) (x : Xop) (c : Cond)
  /-- `[IF cond] AR|AF = yop + 1` (Type 9 register form). -/
  | aluIncY (z : Dest) (y : YReg) (x : Xop) (c : Cond)
  /-- `[IF cond] AR|AF = xop + C` (Type 9 register form, Yop = 11). -/
  | aluXAddC (z : Dest) (x : Xop) (c : Cond)
  /-- `[IF cond] AR|AF = xop + yop + C` (Type 9 register form). -/
  | aluAddC (z : Dest) (y : YReg) (x : Xop) (c : Cond)
  /-- `[IF cond] AR|AF = PASS xop` (Type 9 register form, Yop = 11). -/
  | aluPassX (z : Dest) (x : Xop) (c : Cond)
  /-- `[IF cond] AR|AF = xop + yop` (Type 9 register form). -/
  | aluAdd (z : Dest) (y : YReg) (x : Xop) (c : Cond)
  /-- `[IF cond] AR|AF = NOT 0` (Type 9 register form, Yop = 11). -/
  | aluNotZero (z : Dest) (x : Xop) (c : Cond)
  /-- `[IF cond] AR|AF = NOT yop` (Type 9 register form). -/
  | aluNotY (z : Dest) (y : YReg) (x : Xop) (c : Cond)
  /-- `[IF cond] AR|AF = -yop` (Type 9 register form). -/
  | aluNegY (z : Dest) (y : Yop) (x : Xop) (c : Cond)
  /-- `[IF cond] AR|AF = xop + C - 1` (Type 9 register form, Yop = 11). -/
  | aluXSubBorrow (z : Dest) (x : Xop) (c : Cond)
  /-- `[IF cond] AR|AF = xop - yop + C - 1` (Type 9 register form). -/
  | aluSubBorrow (z : Dest) (y : YReg) (x : Xop) (c : Cond)
  /-- `[IF cond] AR|AF = xop - yop` (Type 9 register form). -/
  | aluSub (z : Dest) (y : Yop) (x : Xop) (c : Cond)
  /-- `[IF cond] AR|AF = PASS -1` (Type 9 register form, Yop = 11). -/
  | aluPassNegOne (z : Dest) (x : Xop) (c : Cond)
  /-- `[IF cond] AR|AF = yop - 1` (Type 9 register form). -/
  | aluDecY (z : Dest) (y : YReg) (x : Xop) (c : Cond)
  /-- `[IF cond] AR|AF = -xop` (Type 9 register form, Yop = 11). -/
  | aluNegX (z : Dest) (x : Xop) (c : Cond)
  /-- `[IF cond] AR|AF = yop - xop` (Type 9 register form). -/
  | aluRsub (z : Dest) (y : YReg) (x : Xop) (c : Cond)
  /-- `[IF cond] AR|AF = -xop + C - 1` (Type 9 register form, Yop = 11). -/
  | aluNegXBorrow (z : Dest) (x : Xop) (c : Cond)
  /-- `[IF cond] AR|AF = yop - xop + C - 1` (Type 9 register form). -/
  | aluRsubBorrow (z : Dest) (y : YReg) (x : Xop) (c : Cond)
  /-- `[IF cond] AR|AF = NOT xop` (Type 9 register form). -/
  | aluNotX (z : Dest) (y : Yop) (x : Xop) (c : Cond)
  /-- `[IF cond] AR|AF = xop AND yop` (Type 9 register form). -/
  | aluAnd (z : Dest) (y : Yop) (x : Xop) (c : Cond)
  /-- `[IF cond] AR|AF = xop OR yop` (Type 9 register form). -/
  | aluOr (z : Dest) (y : Yop) (x : Xop) (c : Cond)
  /-- `[IF cond] AR|AF = xop XOR yop` (Type 9 register form). -/
  | aluXor (z : Dest) (y : Yop) (x : Xop) (c : Cond)
  /-- `[IF cond] AR|AF = ABS xop` (Type 9 register form). -/
  | aluAbs (z : Dest) (y : Yop) (x : Xop) (c : Cond)
  /-- `[IF cond] AR|AF = PASS constant (R = constant)` (Type 9 constant form). -/
  | aluPassConst (z : Dest) (k : Const) (x : Xop) (c : Cond)
  /-- `[IF cond] AR|AF = PASS constant (R = constant + 1)` (Type 9 constant form). -/
  | aluPassConstInc (z : Dest) (k : Const) (x : Xop) (c : Cond)
  /-- `[IF cond] AR|AF = PASS constant (R = constant - 1)` (Type 9 constant form). -/
  | aluPassConstDec (z : Dest) (k : Const) (x : Xop) (c : Cond)
  /-- `[IF cond] AR|AF = xop + constant + C` (Type 9 constant form). -/
  | aluAddConstC (z : Dest) (k : Const) (x : Xop) (c : Cond)
  /-- `[IF cond] AR|AF = xop + constant` (Type 9 constant form). -/
  | aluAddConst (z : Dest) (k : Const) (x : Xop) (c : Cond)
  /-- `[IF cond] AR|AF = xop - constant + C - 1` (Type 9 constant form). -/
  | aluSubConstBorrow (z : Dest) (k : Const) (x : Xop) (c : Cond)
  /-- `[IF cond] AR|AF = xop - constant` (Type 9 constant form). -/
  | aluSubConst (z : Dest) (k : Const) (x : Xop) (c : Cond)
  /-- `[IF cond] AR|AF = -xop + constant` (Type 9 constant form). -/
  | aluRsubConst (z : Dest) (k : Const) (x : Xop) (c : Cond)
  /-- `[IF cond] AR|AF = -xop + constant + C - 1` (Type 9 constant form). -/
  | aluRsubConstBorrow (z : Dest) (k : Const) (x : Xop) (c : Cond)
  /-- `[IF cond] AR|AF = xop AND constant (TSTBIT n OF xop with BO = 1, CLRBIT n OF xop with BO = 3)` (Type 9 constant form). -/
  | aluAndConst (z : Dest) (k : Const) (x : Xop) (c : Cond)
  /-- `[IF cond] AR|AF = xop OR constant (SETBIT n OF xop with BO = 1)` (Type 9 constant form). -/
  | aluOrConst (z : Dest) (k : Const) (x : Xop) (c : Cond)
  /-- `[IF cond] AR|AF = xop XOR constant (TGLBIT n OF xop with BO = 1)` (Type 9 constant form). -/
  | aluXorConst (z : Dest) (k : Const) (x : Xop) (c : Cond)
  /-- `[IF cond] AR|AF = NOT constant` (Type 9 constant form). -/
  | aluNotConst (z : Dest) (k : Const) (x : Xop) (c : Cond)
  /-- `[IF cond] AR|AF = -constant` (Type 9 constant form). -/
  | aluNegConst (z : Dest) (k : Const) (x : Xop) (c : Cond)
  /-- `[IF cond] MR|MF = xop * xop (RND)` (Type 9 squaring form). -/
  | macSqRnd (z : Dest) (x : Xop) (c : Cond)
  /-- `[IF cond] MR|MF = xop * yop (RND)` (Type 9 register form). -/
  | macMulRnd (z : Dest) (y : Yop) (x : Xop) (c : Cond)
  /-- `[IF cond] MR|MF = MR + xop * xop (RND)` (Type 9 squaring form). -/
  | macAddSqRnd (z : Dest) (x : Xop) (c : Cond)
  /-- `[IF cond] MR|MF = MR (RND)` (Type 9 register form, Yop = 11). -/
  | macRnd (z : Dest) (x : Xop) (c : Cond)
  /-- `[IF cond] MR|MF = MR + xop * yop (RND)` (Type 9 register form). -/
  | macAddRnd (z : Dest) (y : YReg) (x : Xop) (c : Cond)
  /-- `[IF cond] MR|MF = MR - xop * xop (RND)` (Type 9 squaring form). -/
  | macSubSqRnd (z : Dest) (x : Xop) (c : Cond)
  /-- `[IF cond] MR|MF = MR - xop * yop (RND)` (Type 9 register form). -/
  | macSubRnd (z : Dest) (y : Yop) (x : Xop) (c : Cond)
  /-- `[IF cond] MR|MF = xop * xop (SS)` (Type 9 squaring form). -/
  | macSqSS (z : Dest) (x : Xop) (c : Cond)
  /-- `[IF cond] MR|MF = 0` (Type 9 register form, Yop = 11). -/
  | macZero (z : Dest) (x : Xop) (c : Cond)
  /-- `[IF cond] MR|MF = xop * yop (SS)` (Type 9 register form). -/
  | macMulSS (z : Dest) (y : YReg) (x : Xop) (c : Cond)
  /-- `[IF cond] MR|MF = xop * yop (SU)` (Type 9 register form). -/
  | macMulSU (z : Dest) (y : Yop) (x : Xop) (c : Cond)
  /-- `[IF cond] MR|MF = xop * yop (US)` (Type 9 register form). -/
  | macMulUS (z : Dest) (y : Yop) (x : Xop) (c : Cond)
  /-- `[IF cond] MR|MF = xop * xop (UU)` (Type 9 squaring form). -/
  | macSqUU (z : Dest) (x : Xop) (c : Cond)
  /-- `[IF cond] MR|MF = xop * yop (UU)` (Type 9 register form). -/
  | macMulUU (z : Dest) (y : Yop) (x : Xop) (c : Cond)
  /-- `[IF cond] MR|MF = MR + xop * xop (SS)` (Type 9 squaring form). -/
  | macAddSqSS (z : Dest) (x : Xop) (c : Cond)
  /-- `[IF cond] MR|MF = MR` (Type 9 register form, Yop = 11). -/
  | macCopy (z : Dest) (x : Xop) (c : Cond)
  /-- `[IF cond] MR|MF = MR + xop * yop (SS)` (Type 9 register form). -/
  | macAddSS (z : Dest) (y : YReg) (x : Xop) (c : Cond)
  /-- `[IF cond] MR|MF = MR + xop * yop (SU)` (Type 9 register form). -/
  | macAddSU (z : Dest) (y : Yop) (x : Xop) (c : Cond)
  /-- `[IF cond] MR|MF = MR + xop * yop (US)` (Type 9 register form). -/
  | macAddUS (z : Dest) (y : Yop) (x : Xop) (c : Cond)
  /-- `[IF cond] MR|MF = MR + xop * xop (UU)` (Type 9 squaring form). -/
  | macAddSqUU (z : Dest) (x : Xop) (c : Cond)
  /-- `[IF cond] MR|MF = MR + xop * yop (UU)` (Type 9 register form). -/
  | macAddUU (z : Dest) (y : Yop) (x : Xop) (c : Cond)
  /-- `[IF cond] MR|MF = MR - xop * xop (SS)` (Type 9 squaring form). -/
  | macSubSqSS (z : Dest) (x : Xop) (c : Cond)
  /-- `[IF cond] MR|MF = MR - xop * yop (SS)` (Type 9 register form). -/
  | macSubSS (z : Dest) (y : Yop) (x : Xop) (c : Cond)
  /-- `[IF cond] MR|MF = MR - xop * yop (SU)` (Type 9 register form). -/
  | macSubSU (z : Dest) (y : Yop) (x : Xop) (c : Cond)
  /-- `[IF cond] MR|MF = MR - xop * yop (US)` (Type 9 register form). -/
  | macSubUS (z : Dest) (y : Yop) (x : Xop) (c : Cond)
  /-- `[IF cond] MR|MF = MR - xop * xop (UU)` (Type 9 squaring form). -/
  | macSubSqUU (z : Dest) (x : Xop) (c : Cond)
  /-- `[IF cond] MR|MF = MR - xop * yop (UU)` (Type 9 register form). -/
  | macSubUU (z : Dest) (y : Yop) (x : Xop) (c : Cond)
  /-- `[IF cond] NOP (Type 9 with no function)` (Type 9). -/
  | condNop (c : Cond)
  /-- `NONE = <ALU operation>` (Type 8 (NONE)). -/
  | aluNone (fn : AluFn) (y : Yop) (x : Xop)
  /-- `dreg = dreg (Type 8 with no computation)` (Type 8, AMF = 00000). -/
  | moveDreg (dd : Dreg) (sd : Dreg)
  /-- `<ALU>, dreg = dreg` (Type 8, ALU function). -/
  | aluMove (z : Dest) (fn : AluFn) (y : Yop) (x : Xop) (dd : Dreg) (sd : Dreg)
  /-- `<MAC>, dreg = dreg` (Type 8, MAC function). -/
  | macMove (z : Dest) (fn : MacFn) (y : Yop) (x : Xop) (dd : Dreg) (sd : Dreg)
  /-- `AX0|AX1|MX0|MX1 = DM(I0-3, M0-3), AY0|AY1|MY0|MY1 = PM(I4-7, M4-7)` (Type 1, AMF = 00000). -/
  | dualRead (pd : PmDst) (dd : DmDst) (pi : BitVec 2) (pm : BitVec 2) (di : BitVec 2) (dm : BitVec 2)
  /-- `<ALU|MAC>, AX0|AX1|MX0|MX1 = DM(I0-3, M0-3), AY0|AY1|MY0|MY1 = PM(I4-7, M4-7)` (Type 1). -/
  | compDualRead (pd : PmDst) (dd : DmDst) (cp : Comp) (pi : BitVec 2) (pm : BitVec 2) (di : BitVec 2) (dm : BitVec 2)
  /-- `dreg = DM(I, M)` (Type 4, AMF = 00000). -/
  | loadDm (g : Bool) (d : Dreg) (i : BitVec 2) (m : BitVec 2)
  /-- `<ALU|MAC>, dreg = DM(I, M)` (Type 4). -/
  | compLoadDm (g : Bool) (z : Dest) (cp : Comp) (d : Dreg) (i : BitVec 2) (m : BitVec 2)
  /-- `DM(I, M) = dreg` (Type 4, AMF = 00000). -/
  | storeDm (g : Bool) (d : Dreg) (i : BitVec 2) (m : BitVec 2)
  /-- `DM(I, M) = dreg, <ALU|MAC>` (Type 4). -/
  | compStoreDm (g : Bool) (z : Dest) (cp : Comp) (d : Dreg) (i : BitVec 2) (m : BitVec 2)
  /-- `dreg = PM(I, M)` (Type 5, AMF = 00000). -/
  | loadPm (d : Dreg) (i : BitVec 2) (m : BitVec 2)
  /-- `<ALU|MAC>, dreg = PM(I, M)` (Type 5). -/
  | compLoadPm (z : Dest) (cp : Comp) (d : Dreg) (i : BitVec 2) (m : BitVec 2)
  /-- `PM(I, M) = dreg` (Type 5, AMF = 00000). -/
  | storePm (d : Dreg) (i : BitVec 2) (m : BitVec 2)
  /-- `PM(I, M) = dreg, <ALU|MAC>` (Type 5). -/
  | compStorePm (z : Dest) (cp : Comp) (d : Dreg) (i : BitVec 2) (m : BitVec 2)
  /-- `DM(I, M) = <data>` (Type 2). -/
  | storeDmImm (g : Bool) (data : BitVec 16) (i : BitVec 2) (m : BitVec 2)
  /-- `reg = DM(<addr>)` (Type 3, D = 0). -/
  | loadReg (r : Reg) (addr : Addr)
  /-- `DM(<addr>) = reg` (Type 3, D = 1). -/
  | storeReg (r : Reg) (addr : Addr)
  /-- `dreg = <data>` (Type 6). -/
  | loadDregImm (data : BitVec 16) (d : Dreg)
  /-- `PMOVLAY = <data>` (Type 7, RGP 1, REG 14). -/
  | loadPmovlay (data : Addr)
  /-- `DMOVLAY = <data>` (Type 7, RGP 1, REG 15). -/
  | loadDmovlay (data : Addr)
  /-- `reg = <data>` (Type 7). -/
  | loadRegImm (r : Reg) (data : Addr)
  /-- `[IF cond] JUMP <addr>` (Type 10, S = 0). -/
  | jump (addr : Addr) (c : Cond)
  /-- `[IF cond] CALL <addr>` (Type 10, S = 1). -/
  | call (addr : Addr) (c : Cond)
  /-- `DO <addr> [UNTIL term]` (Type 11). -/
  | doUntil (addr : Addr) (t : Term)
  /-- `<shift>, dreg = DM(I, M)` (Type 12, D = 0). -/
  | shiftLoadDm (g : Bool) (fn : ShiftFn) (x : ShXop) (d : Dreg) (i : BitVec 2) (m : BitVec 2)
  /-- `DM(I, M) = dreg, <shift>` (Type 12, D = 1). -/
  | shiftStoreDm (g : Bool) (fn : ShiftFn) (x : ShXop) (d : Dreg) (i : BitVec 2) (m : BitVec 2)
  /-- `<shift>, dreg = PM(I, M)` (Type 13, D = 0). -/
  | shiftLoadPm (fn : ShiftFn) (x : ShXop) (d : Dreg) (i : BitVec 2) (m : BitVec 2)
  /-- `PM(I, M) = dreg, <shift>` (Type 13, D = 1). -/
  | shiftStorePm (fn : ShiftFn) (x : ShXop) (d : Dreg) (i : BitVec 2) (m : BitVec 2)
  /-- `<shift>, dreg = dreg` (Type 14). -/
  | shiftMove (fn : ShiftFn) (x : ShXop) (dd : Dreg) (sd : Dreg)
  /-- `SR = LSHIFT xop BY <exp> (HI)` (Type 15). -/
  | lshiftImmHi (x : ShXop) (e : BitVec 8)
  /-- `SR = SR OR LSHIFT xop BY <exp> (HI)` (Type 15). -/
  | lshiftImmHiOr (x : ShXop) (e : BitVec 8)
  /-- `SR = LSHIFT xop BY <exp> (LO)` (Type 15). -/
  | lshiftImmLo (x : ShXop) (e : BitVec 8)
  /-- `SR = SR OR LSHIFT xop BY <exp> (LO)` (Type 15). -/
  | lshiftImmLoOr (x : ShXop) (e : BitVec 8)
  /-- `SR = ASHIFT xop BY <exp> (HI)` (Type 15). -/
  | ashiftImmHi (x : ShXop) (e : BitVec 8)
  /-- `SR = SR OR ASHIFT xop BY <exp> (HI)` (Type 15). -/
  | ashiftImmHiOr (x : ShXop) (e : BitVec 8)
  /-- `SR = ASHIFT xop BY <exp> (LO)` (Type 15). -/
  | ashiftImmLo (x : ShXop) (e : BitVec 8)
  /-- `SR = SR OR ASHIFT xop BY <exp> (LO)` (Type 15). -/
  | ashiftImmLoOr (x : ShXop) (e : BitVec 8)
  /-- `[IF cond] SR = LSHIFT xop (HI)` (Type 16). -/
  | lshiftHi (x : ShXop) (c : Cond)
  /-- `[IF cond] SR = SR OR LSHIFT xop (HI)` (Type 16). -/
  | lshiftHiOr (x : ShXop) (c : Cond)
  /-- `[IF cond] SR = LSHIFT xop (LO)` (Type 16). -/
  | lshiftLo (x : ShXop) (c : Cond)
  /-- `[IF cond] SR = SR OR LSHIFT xop (LO)` (Type 16). -/
  | lshiftLoOr (x : ShXop) (c : Cond)
  /-- `[IF cond] SR = ASHIFT xop (HI)` (Type 16). -/
  | ashiftHi (x : ShXop) (c : Cond)
  /-- `[IF cond] SR = SR OR ASHIFT xop (HI)` (Type 16). -/
  | ashiftHiOr (x : ShXop) (c : Cond)
  /-- `[IF cond] SR = ASHIFT xop (LO)` (Type 16). -/
  | ashiftLo (x : ShXop) (c : Cond)
  /-- `[IF cond] SR = SR OR ASHIFT xop (LO)` (Type 16). -/
  | ashiftLoOr (x : ShXop) (c : Cond)
  /-- `[IF cond] SR = NORM xop (HI)` (Type 16). -/
  | normHi (x : ShXop) (c : Cond)
  /-- `[IF cond] SR = SR OR NORM xop (HI)` (Type 16). -/
  | normHiOr (x : ShXop) (c : Cond)
  /-- `[IF cond] SR = NORM xop (LO)` (Type 16). -/
  | normLo (x : ShXop) (c : Cond)
  /-- `[IF cond] SR = SR OR NORM xop (LO)` (Type 16). -/
  | normLoOr (x : ShXop) (c : Cond)
  /-- `[IF cond] SE = EXP xop (HI)` (Type 16). -/
  | expHi (x : ShXop) (c : Cond)
  /-- `[IF cond] SE = EXP xop (HIX)` (Type 16). -/
  | expHix (x : ShXop) (c : Cond)
  /-- `[IF cond] SE = EXP xop (LO)` (Type 16). -/
  | expLo (x : ShXop) (c : Cond)
  /-- `[IF cond] SB = EXPADJ xop` (Type 16). -/
  | expAdj (x : ShXop) (c : Cond)
  /-- `TOPPCSTACK = reg` (Type 17 (special)). -/
  | pushTop (r : Reg)
  /-- `reg = TOPPCSTACK` (Type 17 (special)). -/
  | popTop (r : Reg)
  /-- `reg = reg` (Type 17). -/
  | moveReg (dst : Reg) (src : Reg)
  /-- `ENA|DIS mode [, ENA|DIS mode ...]` (Type 18). -/
  | modeControl (tim : ModeOp) (mac : ModeOp) (sat : ModeOp) (ovl : ModeOp) (rev : ModeOp) (sec : ModeOp) (go : ModeOp)
  /-- `[IF cond] JUMP (I4|I5|I6|I7)` (Type 19, S = 0). -/
  | jumpInd (i : BitVec 2) (c : Cond)
  /-- `[IF cond] CALL (I4|I5|I6|I7)` (Type 19, S = 1). -/
  | callInd (i : BitVec 2) (c : Cond)
  /-- `[IF cond] RTS` (Type 20, T = 0). -/
  | rts (c : Cond)
  /-- `[IF cond] RTI` (Type 20, T = 1). -/
  | rti (c : Cond)
  /-- `MODIFY (I, M)` (Type 21). -/
  | modify (g : Bool) (i : BitVec 2) (m : BitVec 2)
  /-- `DIVQ xop` (Type 23). -/
  | divq (x : Xop)
  /-- `DIVS yop, xop` (Type 24). -/
  | divs (y : DivY) (x : Xop)
  /-- `IF MV SAT MR` (Type 25). -/
  | satMr
  /-- `ENA INTS` (Type 26, Iq = 11). -/
  | enaInts
  /-- `DIS INTS` (Type 26, Iq = 10). -/
  | disInts
  /-- `[PUSH STS | POP STS] [, POP CNTR] [, POP PC] [, POP LOOP]` (Type 26). -/
  | stackControl (iq : Bool) (pp : Bool) (lp : Bool) (cp : Bool) (spp : StsOp)
  /-- `IF [NOT] FLAG_IN JUMP <addr>` (Type 27, S = 0). -/
  | jumpFlagIn (addr : Addr) (fic : Bool)
  /-- `IF [NOT] FLAG_IN CALL <addr>` (Type 27, S = 1). -/
  | callFlagIn (addr : Addr) (fic : Bool)
  /-- `[IF cond] SET|RESET|TOGGLE FLAG_OUT|FL0|FL1|FL2 [, ...]` (Type 28). -/
  | flagOut (f2 : FlagOp) (f1 : FlagOp) (f0 : FlagOp) (fo : FlagOp) (c : Cond)
  /-- `IDLE` (Type 31, DV = 0). -/
  | idle
  /-- `IDLE (n)` (Type 31). -/
  | idleSlow (n : SlowDiv)
  /-- `dreg = IO(<addr>)` (Type 29, D = 0). -/
  | ioRead (addr : BitVec 11) (d : Dreg)
  /-- `IO(<addr>) = dreg` (Type 29, D = 1). -/
  | ioWrite (addr : BitVec 11) (d : Dreg)
  /-- `NOP` (Type 30). -/
  | nop
  /-- `(reserved)` (Type 22). -/
  | type22 (low : BitVec 16)
  deriving DecidableEq, Repr

end Sys2Proof
end

