-- ==== Sys2Proof/WellFormed.lean ====
section
/-!
DEFINITION. Well-formed instructions: the register restrictions of 43_move.md R361, 45_misc.md R462 to R465 and
30_encoding.md R168, which the types of Syntax.lean do not express; and the names of the reserved words.
-/

namespace Sys2Proof

/-- Why a word is reserved: the items of 30_encoding.md R192. -/
inductive Reserved where
  | type22            -- item 1: Type 22
  | nonZeroFixed      -- item 2: a fixed bit differs
  | regCode           -- item 3: an unassigned register code
  | regAccess         -- item 3: SSTAT written, IFC or OWRCNTR read
  | topPcStack        -- item 3: TOPPCSTACK paired with a register outside the list of 45_misc.md R462
  | shifterX          -- item 4: shifter Xop 001
  | shifterFn         -- item 4: a Type 15 function that is not ASHIFT or LSHIFT
  | type9Form         -- item 5: a Type 9 combination of R169
  | slowDiv           -- item 6: a DV value
  | divsY             -- item 6: DIVS with Yop 00 or 11
  | intStack          -- R186: interrupt enable and stack codes in one word
  | noFunctionFields  -- item 7: AMF 00000 with non-zero Z, Yop, Xop or bits 7:4
  deriving DecidableEq, Repr

/-- A register a move may write: all but SSTAT (43_move.md R361). -/
def Reg.writable : Reg → Bool
  | .sstat => false
  | _ => true

/-- A register a move may read: all but IFC and OWRCNTR (43_move.md R361). -/
def Reg.readable : Reg → Bool
  | .ifc | .owrcntr => false
  | _ => true

/-- The registers the TOPPCSTACK moves permit: group 0, I, M and L (45_misc.md R462). -/
def Reg.pairsTop : Reg → Bool
  | .d _ | .i _ | .m _ | .l _ => true
  | _ => false

/-- The registers of the plain Type 7 row: the two overlay registers have rows of their own (45_misc.md R464, R465). -/
def Reg.notOverlay : Reg → Bool
  | .pmovlay | .dmovlay => false
  | _ => true

/-- An instruction some word stands for. -/
def Instr.wellFormed : Instr → Bool
  | .aluMove .result _ _ _ .ar .ar => false
  | .loadReg r _ => r.writable
  | .storeReg r _ => r.readable
  | .loadRegImm r _ => r.writable && r.notOverlay
  | .pushTop r => r.pairsTop
  | .popTop r => r.pairsTop
  | .moveReg dst src => dst.writable && src.readable
  | _ => true

end Sys2Proof
end

