-- ==== Sys2Proof/Decode.lean ====
section
/-!
DEFINITION. Instruction words (30_encoding.md): field codes, the decoder, total on every 24-bit word and refusing a
reserved word by name (R192), and the encoder.
-/

namespace Sys2Proof

/-! ### Field codes (30_encoding.md section 5) -/

/-- The code of a `Dest`. -/
def Dest.code : Dest → Nat
  | .result => 0
  | .feedback => 1

/-- The `Dest` of a code; codes beyond the field width do not arise. -/
def Dest.ofCode : Nat → Dest
  | 0 => .result
  | _ => .feedback

/-- The code of a `Xop`. -/
def Xop.code : Xop → Nat
  | .x0 => 0
  | .x1 => 1
  | .ar => 2
  | .mr0 => 3
  | .mr1 => 4
  | .mr2 => 5
  | .sr0 => 6
  | .sr1 => 7

/-- The `Xop` of a code; codes beyond the field width do not arise. -/
def Xop.ofCode : Nat → Xop
  | 0 => .x0
  | 1 => .x1
  | 2 => .ar
  | 3 => .mr0
  | 4 => .mr1
  | 5 => .mr2
  | 6 => .sr0
  | _ => .sr1

/-- The code of a `ShXop`. -/
def ShXop.code : ShXop → Nat
  | .si => 0
  | .ar => 2
  | .mr0 => 3
  | .mr1 => 4
  | .mr2 => 5
  | .sr0 => 6
  | .sr1 => 7

/-- The `ShXop` of a code, `none` for a code the tables leave out. -/
def ShXop.ofCode : Nat → Option ShXop
  | 0 => some .si
  | 2 => some .ar
  | 3 => some .mr0
  | 4 => some .mr1
  | 5 => some .mr2
  | 6 => some .sr0
  | 7 => some .sr1
  | _ => none

/-- The code of a `Yop`. -/
def Yop.code : Yop → Nat
  | .y0 => 0
  | .y1 => 1
  | .f => 2
  | .zero => 3

/-- The `Yop` of a code; codes beyond the field width do not arise. -/
def Yop.ofCode : Nat → Yop
  | 0 => .y0
  | 1 => .y1
  | 2 => .f
  | _ => .zero

/-- The code of a `YReg`. -/
def YReg.code : YReg → Nat
  | .y0 => 0
  | .y1 => 1
  | .f => 2

/-- The `YReg` of a code, `none` for a code the tables leave out. -/
def YReg.ofCode : Nat → Option YReg
  | 0 => some .y0
  | 1 => some .y1
  | 2 => some .f
  | _ => none

/-- The code of a `DivY`. -/
def DivY.code : DivY → Nat
  | .ay1 => 1
  | .af => 2

/-- The `DivY` of a code, `none` for a code the tables leave out. -/
def DivY.ofCode : Nat → Option DivY
  | 1 => some .ay1
  | 2 => some .af
  | _ => none

/-- The code of a `Cond`. -/
def Cond.code : Cond → Nat
  | .eq => 0
  | .ne => 1
  | .gt => 2
  | .le => 3
  | .lt => 4
  | .ge => 5
  | .av => 6
  | .notAv => 7
  | .ac => 8
  | .notAc => 9
  | .neg => 10
  | .pos => 11
  | .mv => 12
  | .notMv => 13
  | .notCe => 14
  | .always => 15

/-- The `Cond` of a code; codes beyond the field width do not arise. -/
def Cond.ofCode : Nat → Cond
  | 0 => .eq
  | 1 => .ne
  | 2 => .gt
  | 3 => .le
  | 4 => .lt
  | 5 => .ge
  | 6 => .av
  | 7 => .notAv
  | 8 => .ac
  | 9 => .notAc
  | 10 => .neg
  | 11 => .pos
  | 12 => .mv
  | 13 => .notMv
  | 14 => .notCe
  | _ => .always

/-- The code of a `Term`. -/
def Term.code : Term → Nat
  | .ne => 0
  | .eq => 1
  | .le => 2
  | .gt => 3
  | .ge => 4
  | .lt => 5
  | .notAv => 6
  | .av => 7
  | .notAc => 8
  | .ac => 9
  | .pos => 10
  | .neg => 11
  | .notMv => 12
  | .mv => 13
  | .ce => 14
  | .forever => 15

/-- The `Term` of a code; codes beyond the field width do not arise. -/
def Term.ofCode : Nat → Term
  | 0 => .ne
  | 1 => .eq
  | 2 => .le
  | 3 => .gt
  | 4 => .ge
  | 5 => .lt
  | 6 => .notAv
  | 7 => .av
  | 8 => .notAc
  | 9 => .ac
  | 10 => .pos
  | 11 => .neg
  | 12 => .notMv
  | 13 => .mv
  | 14 => .ce
  | _ => .forever

/-- The code of a `AluFn`. -/
def AluFn.code : AluFn → Nat
  | .passY => 0
  | .incY => 1
  | .addC => 2
  | .add => 3
  | .notY => 4
  | .negY => 5
  | .subBorrow => 6
  | .sub => 7
  | .decY => 8
  | .rsub => 9
  | .rsubBorrow => 10
  | .notX => 11
  | .and => 12
  | .or => 13
  | .xor => 14
  | .abs => 15

/-- The `AluFn` of a code; codes beyond the field width do not arise. -/
def AluFn.ofCode : Nat → AluFn
  | 0 => .passY
  | 1 => .incY
  | 2 => .addC
  | 3 => .add
  | 4 => .notY
  | 5 => .negY
  | 6 => .subBorrow
  | 7 => .sub
  | 8 => .decY
  | 9 => .rsub
  | 10 => .rsubBorrow
  | 11 => .notX
  | 12 => .and
  | 13 => .or
  | 14 => .xor
  | _ => .abs

/-- The code of a `MacFn`. -/
def MacFn.code : MacFn → Nat
  | .mulRnd => 1
  | .addRnd => 2
  | .subRnd => 3
  | .mulSS => 4
  | .mulSU => 5
  | .mulUS => 6
  | .mulUU => 7
  | .addSS => 8
  | .addSU => 9
  | .addUS => 10
  | .addUU => 11
  | .subSS => 12
  | .subSU => 13
  | .subUS => 14
  | .subUU => 15

/-- The `MacFn` of a code, `none` for a code the tables leave out. -/
def MacFn.ofCode : Nat → Option MacFn
  | 1 => some .mulRnd
  | 2 => some .addRnd
  | 3 => some .subRnd
  | 4 => some .mulSS
  | 5 => some .mulSU
  | 6 => some .mulUS
  | 7 => some .mulUU
  | 8 => some .addSS
  | 9 => some .addSU
  | 10 => some .addUS
  | 11 => some .addUU
  | 12 => some .subSS
  | 13 => some .subSU
  | 14 => some .subUS
  | 15 => some .subUU
  | _ => none

/-- The code of a `ShiftFn`. -/
def ShiftFn.code : ShiftFn → Nat
  | .lshiftHi => 0
  | .lshiftHiOr => 1
  | .lshiftLo => 2
  | .lshiftLoOr => 3
  | .ashiftHi => 4
  | .ashiftHiOr => 5
  | .ashiftLo => 6
  | .ashiftLoOr => 7
  | .normHi => 8
  | .normHiOr => 9
  | .normLo => 10
  | .normLoOr => 11
  | .expHi => 12
  | .expHix => 13
  | .expLo => 14
  | .expAdj => 15

/-- The `ShiftFn` of a code; codes beyond the field width do not arise. -/
def ShiftFn.ofCode : Nat → ShiftFn
  | 0 => .lshiftHi
  | 1 => .lshiftHiOr
  | 2 => .lshiftLo
  | 3 => .lshiftLoOr
  | 4 => .ashiftHi
  | 5 => .ashiftHiOr
  | 6 => .ashiftLo
  | 7 => .ashiftLoOr
  | 8 => .normHi
  | 9 => .normHiOr
  | 10 => .normLo
  | 11 => .normLoOr
  | 12 => .expHi
  | 13 => .expHix
  | 14 => .expLo
  | _ => .expAdj

/-- The code of a `Dreg`. -/
def Dreg.code : Dreg → Nat
  | .ax0 => 0
  | .ax1 => 1
  | .mx0 => 2
  | .mx1 => 3
  | .ay0 => 4
  | .ay1 => 5
  | .my0 => 6
  | .my1 => 7
  | .si => 8
  | .se => 9
  | .ar => 10
  | .mr0 => 11
  | .mr1 => 12
  | .mr2 => 13
  | .sr0 => 14
  | .sr1 => 15

/-- The `Dreg` of a code; codes beyond the field width do not arise. -/
def Dreg.ofCode : Nat → Dreg
  | 0 => .ax0
  | 1 => .ax1
  | 2 => .mx0
  | 3 => .mx1
  | 4 => .ay0
  | 5 => .ay1
  | 6 => .my0
  | 7 => .my1
  | 8 => .si
  | 9 => .se
  | 10 => .ar
  | 11 => .mr0
  | 12 => .mr1
  | 13 => .mr2
  | 14 => .sr0
  | _ => .sr1

/-- The code of a `DmDst`. -/
def DmDst.code : DmDst → Nat
  | .ax0 => 0
  | .ax1 => 1
  | .mx0 => 2
  | .mx1 => 3

/-- The `DmDst` of a code; codes beyond the field width do not arise. -/
def DmDst.ofCode : Nat → DmDst
  | 0 => .ax0
  | 1 => .ax1
  | 2 => .mx0
  | _ => .mx1

/-- The code of a `PmDst`. -/
def PmDst.code : PmDst → Nat
  | .ay0 => 0
  | .ay1 => 1
  | .my0 => 2
  | .my1 => 3

/-- The `PmDst` of a code; codes beyond the field width do not arise. -/
def PmDst.ofCode : Nat → PmDst
  | 0 => .ay0
  | 1 => .ay1
  | 2 => .my0
  | _ => .my1

/-- The code of a `ModeOp`. -/
def ModeOp.code : ModeOp → Nat
  | .keep0 => 0
  | .keep1 => 1
  | .disable => 2
  | .enable => 3

/-- The `ModeOp` of a code; codes beyond the field width do not arise. -/
def ModeOp.ofCode : Nat → ModeOp
  | 0 => .keep0
  | 1 => .keep1
  | 2 => .disable
  | _ => .enable

/-- The code of a `FlagOp`. -/
def FlagOp.code : FlagOp → Nat
  | .keep => 0
  | .toggle => 1
  | .reset => 2
  | .set => 3

/-- The `FlagOp` of a code; codes beyond the field width do not arise. -/
def FlagOp.ofCode : Nat → FlagOp
  | 0 => .keep
  | 1 => .toggle
  | 2 => .reset
  | _ => .set

/-- The code of a `StsOp`. -/
def StsOp.code : StsOp → Nat
  | .keep0 => 0
  | .keep1 => 1
  | .push => 2
  | .pop => 3

/-- The `StsOp` of a code; codes beyond the field width do not arise. -/
def StsOp.ofCode : Nat → StsOp
  | 0 => .keep0
  | 1 => .keep1
  | 2 => .push
  | _ => .pop

/-- The code of a `SlowDiv`. -/
def SlowDiv.code : SlowDiv → Nat
  | .by16 => 1
  | .by32 => 2
  | .by64 => 4
  | .by128 => 8

/-- The `SlowDiv` of a code, `none` for a code the tables leave out. -/
def SlowDiv.ofCode : Nat → Option SlowDiv
  | 1 => some .by16
  | 2 => some .by32
  | 4 => some .by64
  | 8 => some .by128
  | _ => none

/-- The register group RGP of a register (30_encoding.md R172). -/
def Reg.group : Reg → Nat
  | .d _ => 0
  | .i n | .m n | .l n => if n.val < 4 then 1 else 2
  | .pmovlay | .dmovlay => 1
  | _ => 3

/-- The code REG of a register within its group (30_encoding.md R172). -/
def Reg.code : Reg → Nat
  | .d r => r.code
  | .i n => n.val % 4
  | .m n => 4 + n.val % 4
  | .l n => 8 + n.val % 4
  | .pmovlay => 14 | .dmovlay => 15
  | .astat => 0 | .mstat => 1 | .sstat => 2 | .imask => 3 | .icntl => 4 | .cntr => 5 | .sb => 6 | .px => 7
  | .rx0 => 8 | .tx0 => 9 | .rx1 => 10 | .tx1 => 11 | .ifc => 12 | .owrcntr => 13

/-- The I, M and L registers of one DAG by their codes 0 to 11 (30_encoding.md R172, groups 01 and 10). -/
def Reg.dagOf (hi : Bool) (c : Nat) : Option Reg :=
  let n (k : Nat) : Fin 8 := Fin.ofNat 8 (if hi then k + 4 else k)
  if c < 4 then some (.i (n c))
  else if c < 8 then some (.m (n (c - 4)))
  else if c < 12 then some (.l (n (c - 8)))
  else none

/-- The register of a group and a code, `none` where 30_encoding.md R172 assigns none. -/
def Reg.ofCode (g c : Nat) : Option Reg :=
  match g with
  | 0 => some (.d (Dreg.ofCode c))
  | 1 => if c = 14 then some .pmovlay else if c = 15 then some .dmovlay else Reg.dagOf false c
  | 2 => Reg.dagOf true c
  | _ =>
    match c with
    | 0 => some .astat | 1 => some .mstat | 2 => some .sstat | 3 => some .imask | 4 => some .icntl
    | 5 => some .cntr | 6 => some .sb | 7 => some .px | 8 => some .rx0 | 9 => some .tx0 | 10 => some .rx1
    | 11 => some .tx1 | 12 => some .ifc | 13 => some .owrcntr
    | _ => none

/-- AMF, Yop and Xop of a computation as the ten bits 17:8 of its word (30_encoding.md R163, R166). -/
def Comp.code : Comp → Nat
  | .alu fn y x => (16 + fn.code) * 32 + y.code * 8 + x.code
  | .mac fn y x => fn.code * 32 + y.code * 8 + x.code

/-- The computation in bits 17:8, `none` for AMF = 00000. -/
def Comp.ofCode (k : Nat) : Option Comp :=
  let y := Yop.ofCode (k / 8 % 4)
  let x := Xop.ofCode (k % 8)
  if 16 ≤ k / 32 then some (.alu (AluFn.ofCode (k / 32 - 16)) y x)
  else (MacFn.ofCode (k / 32)).map (fun fn => .mac fn y x)

/-- A one-bit field. -/
def boolCode (b : Bool) : Nat := if b then 1 else 0

/-- The constant's fields YY (12:11), CC (7:6) and BO (5:4) in place (30_encoding.md R170). -/
def Const.bits (k : Const) : Nat :=
  k.n.val / 4 * 2048 + k.n.val % 4 * 64 + boolCode k.compl * 32 + 16

/-- The constant named by YY, CC and bit 5 of a word (30_encoding.md R170). -/
def Const.ofBits (w : Nat) : Const :=
  { n := Fin.ofNat 16 (w / 2048 % 4 * 4 + w / 64 % 4), compl := w / 32 % 2 == 1 }

/-! ### The encoder -/

/-- The Program Memory word of an instruction, written from the layouts of 30_encoding.md R163 to R190. -/
def encodeNat : Instr → Nat
  | .aluPassZero z x c => 0x221800 + z.code * 262144 + x.code * 256 + c.code
  | .aluPassY z y x c => 0x220000 + z.code * 262144 + y.code * 2048 + x.code * 256 + c.code
  | .aluPassOne z x c => 0x223800 + z.code * 262144 + x.code * 256 + c.code
  | .aluIncY z y x c => 0x222000 + z.code * 262144 + y.code * 2048 + x.code * 256 + c.code
  | .aluXAddC z x c => 0x225800 + z.code * 262144 + x.code * 256 + c.code
  | .aluAddC z y x c => 0x224000 + z.code * 262144 + y.code * 2048 + x.code * 256 + c.code
  | .aluPassX z x c => 0x227800 + z.code * 262144 + x.code * 256 + c.code
  | .aluAdd z y x c => 0x226000 + z.code * 262144 + y.code * 2048 + x.code * 256 + c.code
  | .aluNotZero z x c => 0x229800 + z.code * 262144 + x.code * 256 + c.code
  | .aluNotY z y x c => 0x228000 + z.code * 262144 + y.code * 2048 + x.code * 256 + c.code
  | .aluNegY z y x c => 0x22A000 + z.code * 262144 + y.code * 2048 + x.code * 256 + c.code
  | .aluXSubBorrow z x c => 0x22D800 + z.code * 262144 + x.code * 256 + c.code
  | .aluSubBorrow z y x c => 0x22C000 + z.code * 262144 + y.code * 2048 + x.code * 256 + c.code
  | .aluSub z y x c => 0x22E000 + z.code * 262144 + y.code * 2048 + x.code * 256 + c.code
  | .aluPassNegOne z x c => 0x231800 + z.code * 262144 + x.code * 256 + c.code
  | .aluDecY z y x c => 0x230000 + z.code * 262144 + y.code * 2048 + x.code * 256 + c.code
  | .aluNegX z x c => 0x233800 + z.code * 262144 + x.code * 256 + c.code
  | .aluRsub z y x c => 0x232000 + z.code * 262144 + y.code * 2048 + x.code * 256 + c.code
  | .aluNegXBorrow z x c => 0x235800 + z.code * 262144 + x.code * 256 + c.code
  | .aluRsubBorrow z y x c => 0x234000 + z.code * 262144 + y.code * 2048 + x.code * 256 + c.code
  | .aluNotX z y x c => 0x236000 + z.code * 262144 + y.code * 2048 + x.code * 256 + c.code
  | .aluAnd z y x c => 0x238000 + z.code * 262144 + y.code * 2048 + x.code * 256 + c.code
  | .aluOr z y x c => 0x23A000 + z.code * 262144 + y.code * 2048 + x.code * 256 + c.code
  | .aluXor z y x c => 0x23C000 + z.code * 262144 + y.code * 2048 + x.code * 256 + c.code
  | .aluAbs z y x c => 0x23E000 + z.code * 262144 + y.code * 2048 + x.code * 256 + c.code
  | .aluPassConst z k x c => 0x220000 + z.code * 262144 + k.bits + x.code * 256 + c.code
  | .aluPassConstInc z k x c => 0x222000 + z.code * 262144 + k.bits + x.code * 256 + c.code
  | .aluPassConstDec z k x c => 0x230000 + z.code * 262144 + k.bits + x.code * 256 + c.code
  | .aluAddConstC z k x c => 0x224000 + z.code * 262144 + k.bits + x.code * 256 + c.code
  | .aluAddConst z k x c => 0x226000 + z.code * 262144 + k.bits + x.code * 256 + c.code
  | .aluSubConstBorrow z k x c => 0x22C000 + z.code * 262144 + k.bits + x.code * 256 + c.code
  | .aluSubConst z k x c => 0x22E000 + z.code * 262144 + k.bits + x.code * 256 + c.code
  | .aluRsubConst z k x c => 0x232000 + z.code * 262144 + k.bits + x.code * 256 + c.code
  | .aluRsubConstBorrow z k x c => 0x234000 + z.code * 262144 + k.bits + x.code * 256 + c.code
  | .aluAndConst z k x c => 0x238000 + z.code * 262144 + k.bits + x.code * 256 + c.code
  | .aluOrConst z k x c => 0x23A000 + z.code * 262144 + k.bits + x.code * 256 + c.code
  | .aluXorConst z k x c => 0x23C000 + z.code * 262144 + k.bits + x.code * 256 + c.code
  | .aluNotConst z k x c => 0x228000 + z.code * 262144 + k.bits + x.code * 256 + c.code
  | .aluNegConst z k x c => 0x22A000 + z.code * 262144 + k.bits + x.code * 256 + c.code
  | .macSqRnd z x c => 0x202010 + z.code * 262144 + x.code * 256 + c.code
  | .macMulRnd z y x c => 0x202000 + z.code * 262144 + y.code * 2048 + x.code * 256 + c.code
  | .macAddSqRnd z x c => 0x204010 + z.code * 262144 + x.code * 256 + c.code
  | .macRnd z x c => 0x205800 + z.code * 262144 + x.code * 256 + c.code
  | .macAddRnd z y x c => 0x204000 + z.code * 262144 + y.code * 2048 + x.code * 256 + c.code
  | .macSubSqRnd z x c => 0x206010 + z.code * 262144 + x.code * 256 + c.code
  | .macSubRnd z y x c => 0x206000 + z.code * 262144 + y.code * 2048 + x.code * 256 + c.code
  | .macSqSS z x c => 0x208010 + z.code * 262144 + x.code * 256 + c.code
  | .macZero z x c => 0x209800 + z.code * 262144 + x.code * 256 + c.code
  | .macMulSS z y x c => 0x208000 + z.code * 262144 + y.code * 2048 + x.code * 256 + c.code
  | .macMulSU z y x c => 0x20A000 + z.code * 262144 + y.code * 2048 + x.code * 256 + c.code
  | .macMulUS z y x c => 0x20C000 + z.code * 262144 + y.code * 2048 + x.code * 256 + c.code
  | .macSqUU z x c => 0x20E010 + z.code * 262144 + x.code * 256 + c.code
  | .macMulUU z y x c => 0x20E000 + z.code * 262144 + y.code * 2048 + x.code * 256 + c.code
  | .macAddSqSS z x c => 0x210010 + z.code * 262144 + x.code * 256 + c.code
  | .macCopy z x c => 0x211800 + z.code * 262144 + x.code * 256 + c.code
  | .macAddSS z y x c => 0x210000 + z.code * 262144 + y.code * 2048 + x.code * 256 + c.code
  | .macAddSU z y x c => 0x212000 + z.code * 262144 + y.code * 2048 + x.code * 256 + c.code
  | .macAddUS z y x c => 0x214000 + z.code * 262144 + y.code * 2048 + x.code * 256 + c.code
  | .macAddSqUU z x c => 0x216010 + z.code * 262144 + x.code * 256 + c.code
  | .macAddUU z y x c => 0x216000 + z.code * 262144 + y.code * 2048 + x.code * 256 + c.code
  | .macSubSqSS z x c => 0x218010 + z.code * 262144 + x.code * 256 + c.code
  | .macSubSS z y x c => 0x218000 + z.code * 262144 + y.code * 2048 + x.code * 256 + c.code
  | .macSubSU z y x c => 0x21A000 + z.code * 262144 + y.code * 2048 + x.code * 256 + c.code
  | .macSubUS z y x c => 0x21C000 + z.code * 262144 + y.code * 2048 + x.code * 256 + c.code
  | .macSubSqUU z x c => 0x21E010 + z.code * 262144 + x.code * 256 + c.code
  | .macSubUU z y x c => 0x21E000 + z.code * 262144 + y.code * 2048 + x.code * 256 + c.code
  | .condNop c => 0x200000 + c.code
  | .aluNone fn y x => 0x2A00AA + fn.code * 8192 + y.code * 2048 + x.code * 256
  | .moveDreg dd sd => 0x280000 + dd.code * 16 + sd.code
  | .aluMove z fn y x dd sd => 0x2A0000 + z.code * 262144 + fn.code * 8192 + y.code * 2048 + x.code * 256 + dd.code * 16 + sd.code
  | .macMove z fn y x dd sd => 0x280000 + z.code * 262144 + fn.code * 8192 + y.code * 2048 + x.code * 256 + dd.code * 16 + sd.code
  | .dualRead pd dd pi pm di dm => 0xC00000 + pd.code * 1048576 + dd.code * 262144 + pi.toNat * 64 + pm.toNat * 16 + di.toNat * 4 + dm.toNat
  | .compDualRead pd dd cp pi pm di dm => 0xC00000 + pd.code * 1048576 + dd.code * 262144 + cp.code * 256 + pi.toNat * 64 + pm.toNat * 16 + di.toNat * 4 + dm.toNat
  | .loadDm g d i m => 0x600000 + boolCode g * 1048576 + d.code * 16 + i.toNat * 4 + m.toNat
  | .compLoadDm g z cp d i m => 0x600000 + boolCode g * 1048576 + z.code * 262144 + cp.code * 256 + d.code * 16 + i.toNat * 4 + m.toNat
  | .storeDm g d i m => 0x680000 + boolCode g * 1048576 + d.code * 16 + i.toNat * 4 + m.toNat
  | .compStoreDm g z cp d i m => 0x680000 + boolCode g * 1048576 + z.code * 262144 + cp.code * 256 + d.code * 16 + i.toNat * 4 + m.toNat
  | .loadPm d i m => 0x500000 + d.code * 16 + i.toNat * 4 + m.toNat
  | .compLoadPm z cp d i m => 0x500000 + z.code * 262144 + cp.code * 256 + d.code * 16 + i.toNat * 4 + m.toNat
  | .storePm d i m => 0x580000 + d.code * 16 + i.toNat * 4 + m.toNat
  | .compStorePm z cp d i m => 0x580000 + z.code * 262144 + cp.code * 256 + d.code * 16 + i.toNat * 4 + m.toNat
  | .storeDmImm g data i m => 0xA00000 + boolCode g * 1048576 + data.toNat * 16 + i.toNat * 4 + m.toNat
  | .loadReg r addr => 0x800000 + r.group * 262144 + r.code + addr.toNat * 16
  | .storeReg r addr => 0x900000 + r.group * 262144 + r.code + addr.toNat * 16
  | .loadDregImm data d => 0x400000 + data.toNat * 16 + d.code
  | .loadPmovlay data => 0x34000E + data.toNat * 16
  | .loadDmovlay data => 0x34000F + data.toNat * 16
  | .loadRegImm r data => 0x300000 + r.group * 262144 + r.code + data.toNat * 16
  | .jump addr c => 0x180000 + addr.toNat * 16 + c.code
  | .call addr c => 0x1C0000 + addr.toNat * 16 + c.code
  | .doUntil addr t => 0x140000 + addr.toNat * 16 + t.code
  | .shiftLoadDm g fn x d i m => 0x120000 + boolCode g * 65536 + fn.code * 2048 + x.code * 256 + d.code * 16 + i.toNat * 4 + m.toNat
  | .shiftStoreDm g fn x d i m => 0x128000 + boolCode g * 65536 + fn.code * 2048 + x.code * 256 + d.code * 16 + i.toNat * 4 + m.toNat
  | .shiftLoadPm fn x d i m => 0x110000 + fn.code * 2048 + x.code * 256 + d.code * 16 + i.toNat * 4 + m.toNat
  | .shiftStorePm fn x d i m => 0x118000 + fn.code * 2048 + x.code * 256 + d.code * 16 + i.toNat * 4 + m.toNat
  | .shiftMove fn x dd sd => 0x100000 + fn.code * 2048 + x.code * 256 + dd.code * 16 + sd.code
  | .lshiftImmHi x e => 0x0F0000 + x.code * 256 + e.toNat
  | .lshiftImmHiOr x e => 0x0F0800 + x.code * 256 + e.toNat
  | .lshiftImmLo x e => 0x0F1000 + x.code * 256 + e.toNat
  | .lshiftImmLoOr x e => 0x0F1800 + x.code * 256 + e.toNat
  | .ashiftImmHi x e => 0x0F2000 + x.code * 256 + e.toNat
  | .ashiftImmHiOr x e => 0x0F2800 + x.code * 256 + e.toNat
  | .ashiftImmLo x e => 0x0F3000 + x.code * 256 + e.toNat
  | .ashiftImmLoOr x e => 0x0F3800 + x.code * 256 + e.toNat
  | .lshiftHi x c => 0x0E0000 + x.code * 256 + c.code
  | .lshiftHiOr x c => 0x0E0800 + x.code * 256 + c.code
  | .lshiftLo x c => 0x0E1000 + x.code * 256 + c.code
  | .lshiftLoOr x c => 0x0E1800 + x.code * 256 + c.code
  | .ashiftHi x c => 0x0E2000 + x.code * 256 + c.code
  | .ashiftHiOr x c => 0x0E2800 + x.code * 256 + c.code
  | .ashiftLo x c => 0x0E3000 + x.code * 256 + c.code
  | .ashiftLoOr x c => 0x0E3800 + x.code * 256 + c.code
  | .normHi x c => 0x0E4000 + x.code * 256 + c.code
  | .normHiOr x c => 0x0E4800 + x.code * 256 + c.code
  | .normLo x c => 0x0E5000 + x.code * 256 + c.code
  | .normLoOr x c => 0x0E5800 + x.code * 256 + c.code
  | .expHi x c => 0x0E6000 + x.code * 256 + c.code
  | .expHix x c => 0x0E6800 + x.code * 256 + c.code
  | .expLo x c => 0x0E7000 + x.code * 256 + c.code
  | .expAdj x c => 0x0E7800 + x.code * 256 + c.code
  | .pushTop r => 0x0D0CF0 + r.group * 256 + r.code
  | .popTop r => 0x0D030F + r.group * 1024 + r.code * 16
  | .moveReg dst src => 0x0D0000 + dst.group * 1024 + dst.code * 16 + src.group * 256 + src.code
  | .modeControl tim mac sat ovl rev sec go => 0x0C0000 + tim.code * 16384 + mac.code * 4096 + sat.code * 1024 + ovl.code * 256 + rev.code * 64 + sec.code * 16 + go.code * 4
  | .jumpInd i c => 0x0B0000 + i.toNat * 64 + c.code
  | .callInd i c => 0x0B0010 + i.toNat * 64 + c.code
  | .rts c => 0x0A0000 + c.code
  | .rti c => 0x0A0010 + c.code
  | .modify g i m => 0x090000 + boolCode g * 16 + i.toNat * 4 + m.toNat
  | .divq x => 0x071000 + x.code * 256
  | .divs y x => 0x060000 + y.code * 2048 + x.code * 256
  | .satMr => 0x050000
  | .enaInts => 0x040060
  | .disInts => 0x040040
  | .stackControl iq pp lp cp spp => 0x040000 + boolCode iq * 32 + boolCode pp * 16 + boolCode lp * 8 + boolCode cp * 4 + spp.code
  | .jumpFlagIn addr fic => 0x030000 + addr.toNat % 4096 * 16 + addr.toNat / 4096 * 4 + boolCode fic * 2
  | .callFlagIn addr fic => 0x030001 + addr.toNat % 4096 * 16 + addr.toNat / 4096 * 4 + boolCode fic * 2
  | .flagOut f2 f1 f0 fo c => 0x020000 + f2.code * 1024 + f1.code * 256 + f0.code * 64 + fo.code * 16 + c.code
  | .idle => 0x028000
  | .idleSlow n => 0x028000 + n.code
  | .ioRead addr d => 0x010000 + addr.toNat * 16 + d.code
  | .ioWrite addr d => 0x018000 + addr.toNat * 16 + d.code
  | .nop => 0x000000
  | .type22 low => 0x080000 + low.toNat

/-- The encoder: the 24-bit word of an instruction. -/
def encode (i : Instr) : PmWord := BitVec.ofNat 24 (encodeNat i)

/-! ### The decoder -/

/-- What a 24-bit word is: an instruction, or a reserved word with the reason (30_encoding.md R192). -/
inductive Decoded where
  | instr (i : Instr)
  | reserved (r : Reserved)
  deriving DecidableEq, Repr

/-- An instruction if there is one, else the reserved word's reason. -/
def Decoded.ofOption (r : Reserved) : Option Instr → Decoded
  | some i => .instr i
  | none => .reserved r

/-- Type 9 with an ALU code, constant form (30_encoding.md R169); AMF 27 and 31 take no Y operand. -/
def decodeAluConst (w : Nat) : Decoded :=
  let z := Dest.ofCode (w / 262144 % 2)
  let k := Const.ofBits w
  let x := Xop.ofCode (w / 256 % 8)
  let c := Cond.ofCode (w % 16)
  match w / 8192 % 32 with
  | 16 => .instr (.aluPassConst z k x c)
  | 17 => .instr (.aluPassConstInc z k x c)
  | 24 => .instr (.aluPassConstDec z k x c)
  | 18 => .instr (.aluAddConstC z k x c)
  | 19 => .instr (.aluAddConst z k x c)
  | 22 => .instr (.aluSubConstBorrow z k x c)
  | 23 => .instr (.aluSubConst z k x c)
  | 25 => .instr (.aluRsubConst z k x c)
  | 26 => .instr (.aluRsubConstBorrow z k x c)
  | 28 => .instr (.aluAndConst z k x c)
  | 29 => .instr (.aluOrConst z k x c)
  | 30 => .instr (.aluXorConst z k x c)
  | 20 => .instr (.aluNotConst z k x c)
  | 21 => .instr (.aluNegConst z k x c)
  | _ => .reserved .type9Form

/-- Type 9 with an ALU code, register form (30_encoding.md R169). The words of ABS and of NOT of an X operand decode
as these with any Y operand code in bits 12:11, which 40_alu.md R248 and R194 show as 00, and those of a function without an X
operand, PASS yop and PASS 0 among them, with any Xop field, which R194 shows as 000 for PASS yop (DESIGN CHOICE,
notes/assumptions/27.md). -/
def decodeAluReg (w : Nat) : Decoded :=
  let z := Dest.ofCode (w / 262144 % 2)
  let y := Yop.ofCode (w / 2048 % 4)
  let x := Xop.ofCode (w / 256 % 8)
  let c := Cond.ofCode (w % 16)
  let split (zero : Instr) (reg : YReg → Instr) : Decoded :=
    .instr (match YReg.ofCode (w / 2048 % 4) with | some r => reg r | none => zero)
  match w / 8192 % 32 with
  | 16 => split (.aluPassZero z x c) (fun r => .aluPassY z r x c)
  | 17 => split (.aluPassOne z x c) (fun r => .aluIncY z r x c)
  | 18 => split (.aluXAddC z x c) (fun r => .aluAddC z r x c)
  | 19 => split (.aluPassX z x c) (fun r => .aluAdd z r x c)
  | 20 => split (.aluNotZero z x c) (fun r => .aluNotY z r x c)
  | 21 => .instr (.aluNegY z y x c)
  | 22 => split (.aluXSubBorrow z x c) (fun r => .aluSubBorrow z r x c)
  | 23 => .instr (.aluSub z y x c)
  | 24 => split (.aluPassNegOne z x c) (fun r => .aluDecY z r x c)
  | 25 => split (.aluNegX z x c) (fun r => .aluRsub z r x c)
  | 26 => split (.aluNegXBorrow z x c) (fun r => .aluRsubBorrow z r x c)
  | 27 => .instr (.aluNotX z y x c)
  | 28 => .instr (.aluAnd z y x c)
  | 29 => .instr (.aluOr z y x c)
  | 30 => .instr (.aluXor z y x c)
  | 31 => .instr (.aluAbs z y x c)
  | _ => .reserved .type9Form

/-- Type 9 with a MAC code, register form (30_encoding.md R169). -/
def decodeMacReg (w : Nat) : Decoded :=
  let z := Dest.ofCode (w / 262144 % 2)
  let y := Yop.ofCode (w / 2048 % 4)
  let x := Xop.ofCode (w / 256 % 8)
  let c := Cond.ofCode (w % 16)
  let split (zero : Instr) (reg : YReg → Instr) : Decoded :=
    .instr (match YReg.ofCode (w / 2048 % 4) with | some r => reg r | none => zero)
  match w / 8192 % 32 with
  | 1 => .instr (.macMulRnd z y x c)
  | 2 => split (.macRnd z x c) (fun r => .macAddRnd z r x c)
  | 3 => .instr (.macSubRnd z y x c)
  | 4 => split (.macZero z x c) (fun r => .macMulSS z r x c)
  | 5 => .instr (.macMulSU z y x c)
  | 6 => .instr (.macMulUS z y x c)
  | 7 => .instr (.macMulUU z y x c)
  | 8 => split (.macCopy z x c) (fun r => .macAddSS z r x c)
  | 9 => .instr (.macAddSU z y x c)
  | 10 => .instr (.macAddUS z y x c)
  | 11 => .instr (.macAddUU z y x c)
  | 12 => .instr (.macSubSS z y x c)
  | 13 => .instr (.macSubSU z y x c)
  | 14 => .instr (.macSubUS z y x c)
  | 15 => .instr (.macSubUU z y x c)
  | _ => .reserved .type9Form

/-- Type 9, squaring form: SS, UU and RND only (30_encoding.md R169). -/
def decodeMacSquare (w : Nat) : Decoded :=
  let z := Dest.ofCode (w / 262144 % 2)
  let x := Xop.ofCode (w / 256 % 8)
  let c := Cond.ofCode (w % 16)
  match w / 8192 % 32 with
  | 1 => .instr (.macSqRnd z x c)
  | 2 => .instr (.macAddSqRnd z x c)
  | 3 => .instr (.macSubSqRnd z x c)
  | 4 => .instr (.macSqSS z x c)
  | 7 => .instr (.macSqUU z x c)
  | 8 => .instr (.macAddSqSS z x c)
  | 11 => .instr (.macAddSqUU z x c)
  | 12 => .instr (.macSubSqSS z x c)
  | 15 => .instr (.macSubSqUU z x c)
  | _ => .reserved .type9Form

/-- Type 9, conditional ALU / MAC: the form is decided by bits 7:4 and the class of AMF (30_encoding.md R169). -/
def decodeType9 (w : Nat) : Decoded :=
  if 16 ≤ w / 8192 % 32 then
    if w / 16 % 16 = 0 then decodeAluReg w
    else if w / 16 % 2 = 1 then decodeAluConst w
    else .reserved .type9Form
  else if w / 8192 % 32 = 0 then
    if w / 16 % 16 = 0 ∧ w / 256 % 32 = 0 ∧ w / 262144 % 2 = 0 then .instr (.condNop (Cond.ofCode (w % 16)))
    else .reserved .noFunctionFields
  else if w / 16 % 16 = 0 then decodeMacReg w
  else if w / 16 % 16 = 1 ∧ w / 2048 % 4 = 0 then decodeMacSquare w
  else .reserved .type9Form

/-- Type 8: NONE, a move alone, or a computation and a move (30_encoding.md R168, D17). -/
def decodeType8 (w : Nat) : Decoded :=
  if 16 ≤ w / 8192 % 32 then
    if w / 262144 % 2 = 0 ∧ w % 256 = 170 then .instr (.aluNone (AluFn.ofCode (w / 8192 % 16)) (Yop.ofCode (w / 2048 % 4)) (Xop.ofCode (w / 256 % 8)))
    else .instr (.aluMove (Dest.ofCode (w / 262144 % 2)) (AluFn.ofCode (w / 8192 % 16)) (Yop.ofCode (w / 2048 % 4)) (Xop.ofCode (w / 256 % 8)) (Dreg.ofCode (w / 16 % 16)) (Dreg.ofCode (w % 16)))
  else
    match MacFn.ofCode (w / 8192 % 32) with
    | some fn => .instr (.macMove (Dest.ofCode (w / 262144 % 2)) fn (Yop.ofCode (w / 2048 % 4)) (Xop.ofCode (w / 256 % 8)) (Dreg.ofCode (w / 16 % 16)) (Dreg.ofCode (w % 16)))
    | none =>
      if w / 262144 % 2 = 0 ∧ w / 256 % 32 = 0 then .instr (.moveDreg (Dreg.ofCode (w / 16 % 16)) (Dreg.ofCode (w % 16)))
      else .reserved .noFunctionFields

/-- Type 1: two reads, with or without a computation (30_encoding.md R163). -/
def decodeType1 (w : Nat) : Decoded :=
  match Comp.ofCode (w / 256 % 1024) with
  | some cp => .instr (.compDualRead (PmDst.ofCode (w / 1048576 % 4)) (DmDst.ofCode (w / 262144 % 4)) cp (BitVec.ofNat 2 (w / 64 % 4)) (BitVec.ofNat 2 (w / 16 % 4)) (BitVec.ofNat 2 (w / 4 % 4)) (BitVec.ofNat 2 (w % 4)))
  | none =>
    if w / 256 % 32 = 0 then .instr (.dualRead (PmDst.ofCode (w / 1048576 % 4)) (DmDst.ofCode (w / 262144 % 4)) (BitVec.ofNat 2 (w / 64 % 4)) (BitVec.ofNat 2 (w / 16 % 4)) (BitVec.ofNat 2 (w / 4 % 4)) (BitVec.ofNat 2 (w % 4)))
    else .reserved .noFunctionFields

/-- Type 4: a computation with a Data Memory access, or the access alone (30_encoding.md R166). -/
def decodeType4 (w : Nat) : Decoded :=
  match Comp.ofCode (w / 256 % 1024) with
  | some cp =>
    if w / 524288 % 2 = 0 then .instr (.compLoadDm (w / 1048576 % 2 == 1) (Dest.ofCode (w / 262144 % 2)) cp (Dreg.ofCode (w / 16 % 16)) (BitVec.ofNat 2 (w / 4 % 4)) (BitVec.ofNat 2 (w % 4)))
    else .instr (.compStoreDm (w / 1048576 % 2 == 1) (Dest.ofCode (w / 262144 % 2)) cp (Dreg.ofCode (w / 16 % 16)) (BitVec.ofNat 2 (w / 4 % 4)) (BitVec.ofNat 2 (w % 4)))
  | none =>
    if w / 256 % 32 = 0 ∧ w / 262144 % 2 = 0 then
      if w / 524288 % 2 = 0 then .instr (.loadDm (w / 1048576 % 2 == 1) (Dreg.ofCode (w / 16 % 16)) (BitVec.ofNat 2 (w / 4 % 4)) (BitVec.ofNat 2 (w % 4)))
      else .instr (.storeDm (w / 1048576 % 2 == 1) (Dreg.ofCode (w / 16 % 16)) (BitVec.ofNat 2 (w / 4 % 4)) (BitVec.ofNat 2 (w % 4)))
    else .reserved .noFunctionFields

/-- Type 5: a computation with a Program Memory access, or the access alone (30_encoding.md R166). -/
def decodeType5 (w : Nat) : Decoded :=
  match Comp.ofCode (w / 256 % 1024) with
  | some cp =>
    if w / 524288 % 2 = 0 then .instr (.compLoadPm (Dest.ofCode (w / 262144 % 2)) cp (Dreg.ofCode (w / 16 % 16)) (BitVec.ofNat 2 (w / 4 % 4)) (BitVec.ofNat 2 (w % 4)))
    else .instr (.compStorePm (Dest.ofCode (w / 262144 % 2)) cp (Dreg.ofCode (w / 16 % 16)) (BitVec.ofNat 2 (w / 4 % 4)) (BitVec.ofNat 2 (w % 4)))
  | none =>
    if w / 256 % 32 = 0 ∧ w / 262144 % 2 = 0 then
      if w / 524288 % 2 = 0 then .instr (.loadPm (Dreg.ofCode (w / 16 % 16)) (BitVec.ofNat 2 (w / 4 % 4)) (BitVec.ofNat 2 (w % 4)))
      else .instr (.storePm (Dreg.ofCode (w / 16 % 16)) (BitVec.ofNat 2 (w / 4 % 4)) (BitVec.ofNat 2 (w % 4)))
    else .reserved .noFunctionFields

/-- Type 3: direct Data Memory access by any register of R172 (30_encoding.md R165; 43_move.md R361). -/
def decodeType3 (w : Nat) : Decoded :=
  match Reg.ofCode (w / 262144 % 4) (w % 16) with
  | none => .reserved .regCode
  | some r =>
    if w / 1048576 % 2 = 0 then
      if r.writable then .instr (.loadReg r (BitVec.ofNat 14 (w / 16 % 16384))) else .reserved .regAccess
    else
      if r.readable then .instr (.storeReg r (BitVec.ofNat 14 (w / 16 % 16384))) else .reserved .regAccess

/-- Type 7: immediate load of a non-data register (30_encoding.md R167; 43_move.md R363). -/
def decodeType7 (w : Nat) : Decoded :=
  match Reg.ofCode (w / 262144 % 4) (w % 16) with
  | none => .reserved .regCode
  | some .pmovlay => .instr (.loadPmovlay (BitVec.ofNat 14 (w / 16 % 16384)))
  | some .dmovlay => .instr (.loadDmovlay (BitVec.ofNat 14 (w / 16 % 16384)))
  | some r => if r.writable then .instr (.loadRegImm r (BitVec.ofNat 14 (w / 16 % 16384))) else .reserved .regAccess

/-- Type 10: JUMP and CALL with an immediate address (30_encoding.md R180). -/
def decodeType10 (w : Nat) : Decoded :=
  if w / 262144 % 2 = 0 then .instr (.jump (BitVec.ofNat 14 (w / 16 % 16384)) (Cond.ofCode (w % 16)))
  else .instr (.call (BitVec.ofNat 14 (w / 16 % 16384)) (Cond.ofCode (w % 16)))

/-- Type 12: a shift with a Data Memory access (30_encoding.md R181). -/
def decodeType12 (w : Nat) : Decoded :=
  match ShXop.ofCode (w / 256 % 8) with
  | none => .reserved .shifterX
  | some x =>
    if w / 32768 % 2 = 0 then .instr (.shiftLoadDm (w / 65536 % 2 == 1) (ShiftFn.ofCode (w / 2048 % 16)) x (Dreg.ofCode (w / 16 % 16)) (BitVec.ofNat 2 (w / 4 % 4)) (BitVec.ofNat 2 (w % 4)))
    else .instr (.shiftStoreDm (w / 65536 % 2 == 1) (ShiftFn.ofCode (w / 2048 % 16)) x (Dreg.ofCode (w / 16 % 16)) (BitVec.ofNat 2 (w / 4 % 4)) (BitVec.ofNat 2 (w % 4)))

/-- Type 13: a shift with a Program Memory access (30_encoding.md R181). -/
def decodeType13 (w : Nat) : Decoded :=
  match ShXop.ofCode (w / 256 % 8) with
  | none => .reserved .shifterX
  | some x =>
    if w / 32768 % 2 = 0 then .instr (.shiftLoadPm (ShiftFn.ofCode (w / 2048 % 16)) x (Dreg.ofCode (w / 16 % 16)) (BitVec.ofNat 2 (w / 4 % 4)) (BitVec.ofNat 2 (w % 4)))
    else .instr (.shiftStorePm (ShiftFn.ofCode (w / 2048 % 16)) x (Dreg.ofCode (w / 16 % 16)) (BitVec.ofNat 2 (w / 4 % 4)) (BitVec.ofNat 2 (w % 4)))

/-- Type 14: a shift with a register move; bit 15 is 0 (30_encoding.md R181). -/
def decodeType14 (w : Nat) : Decoded :=
  if w / 32768 % 2 = 0 then
    match ShXop.ofCode (w / 256 % 8) with
    | none => .reserved .shifterX
    | some x => .instr (.shiftMove (ShiftFn.ofCode (w / 2048 % 16)) x (Dreg.ofCode (w / 16 % 16)) (Dreg.ofCode (w % 16)))
  else .reserved .nonZeroFixed

/-- Type 15: shift immediate; bit 15 is 0 and only ASHIFT and LSHIFT exist (30_encoding.md R179, R181). -/
def decodeType15 (w : Nat) : Decoded :=
  let e := BitVec.ofNat 8 (w % 256)
  if w / 32768 % 2 = 0 then
    match ShXop.ofCode (w / 256 % 8) with
    | none => .reserved .shifterX
    | some x =>
      match w / 2048 % 16 with
      | 0 => .instr (.lshiftImmHi x e)
      | 1 => .instr (.lshiftImmHiOr x e)
      | 2 => .instr (.lshiftImmLo x e)
      | 3 => .instr (.lshiftImmLoOr x e)
      | 4 => .instr (.ashiftImmHi x e)
      | 5 => .instr (.ashiftImmHiOr x e)
      | 6 => .instr (.ashiftImmLo x e)
      | 7 => .instr (.ashiftImmLoOr x e)
      | _ => .reserved .shifterFn
  else .reserved .nonZeroFixed

/-- Type 16: conditional shift; bit 15 and bits 7:4 are 0 (30_encoding.md R181). -/
def decodeType16 (w : Nat) : Decoded :=
  let c := Cond.ofCode (w % 16)
  if w / 32768 % 2 = 0 ∧ w / 16 % 16 = 0 then
    match ShXop.ofCode (w / 256 % 8) with
    | none => .reserved .shifterX
    | some x =>
      match w / 2048 % 16 with
      | 0 => .instr (.lshiftHi x c)
      | 1 => .instr (.lshiftHiOr x c)
      | 2 => .instr (.lshiftLo x c)
      | 3 => .instr (.lshiftLoOr x c)
      | 4 => .instr (.ashiftHi x c)
      | 5 => .instr (.ashiftHiOr x c)
      | 6 => .instr (.ashiftLo x c)
      | 7 => .instr (.ashiftLoOr x c)
      | 8 => .instr (.normHi x c)
      | 9 => .instr (.normHiOr x c)
      | 10 => .instr (.normLo x c)
      | 11 => .instr (.normLoOr x c)
      | 12 => .instr (.expHi x c)
      | 13 => .instr (.expHix x c)
      | 14 => .instr (.expLo x c)
      | _ => .instr (.expAdj x c)
  else .reserved .nonZeroFixed

/-- Type 17: register move, and the two TOPPCSTACK moves (30_encoding.md R182, R192; 45_misc.md R462, R463). -/
def decodeType17 (w : Nat) : Decoded :=
  if w / 4096 % 16 ≠ 0 then .reserved .nonZeroFixed
  else if w / 1024 % 4 = 3 ∧ w / 16 % 16 = 15 then
    match Reg.ofCode (w / 256 % 4) (w % 16) with
    | none => .reserved .topPcStack
    | some r => if r.pairsTop then .instr (.pushTop r) else .reserved .topPcStack
  else if w / 256 % 4 = 3 ∧ w % 16 = 15 then
    match Reg.ofCode (w / 1024 % 4) (w / 16 % 16) with
    | none => .reserved .topPcStack
    | some r => if r.pairsTop then .instr (.popTop r) else .reserved .topPcStack
  else
    match Reg.ofCode (w / 1024 % 4) (w / 16 % 16) with
    | none => .reserved .regCode
    | some dst =>
      match Reg.ofCode (w / 256 % 4) (w % 16) with
      | none => .reserved .regCode
      | some src => if dst.writable ∧ src.readable then .instr (.moveReg dst src) else .reserved .regAccess

/-- Type 18: mode control; bits 1:0 are 0 (30_encoding.md R183). -/
def decodeType18 (w : Nat) : Decoded :=
  if w % 4 = 0 then
    .instr (.modeControl (ModeOp.ofCode (w / 16384 % 4)) (ModeOp.ofCode (w / 4096 % 4)) (ModeOp.ofCode (w / 1024 % 4)) (ModeOp.ofCode (w / 256 % 4)) (ModeOp.ofCode (w / 64 % 4)) (ModeOp.ofCode (w / 16 % 4)) (ModeOp.ofCode (w / 4 % 4)))
  else .reserved .nonZeroFixed

/-- Type 19: indirect JUMP and CALL; bits 15:8 and bit 5 are 0 (30_encoding.md R184). -/
def decodeType19 (w : Nat) : Decoded :=
  if w / 256 % 256 = 0 ∧ w / 32 % 2 = 0 then
    if w / 16 % 2 = 0 then .instr (.jumpInd (BitVec.ofNat 2 (w / 64 % 4)) (Cond.ofCode (w % 16)))
    else .instr (.callInd (BitVec.ofNat 2 (w / 64 % 4)) (Cond.ofCode (w % 16)))
  else .reserved .nonZeroFixed

/-- Type 20: RTS and RTI; bits 15:5 are 0 (30_encoding.md R184). -/
def decodeType20 (w : Nat) : Decoded :=
  if w / 32 % 2048 = 0 then
    if w / 16 % 2 = 0 then .instr (.rts (Cond.ofCode (w % 16)))
    else .instr (.rti (Cond.ofCode (w % 16)))
  else .reserved .nonZeroFixed

/-- Type 21: MODIFY; bits 15:5 are 0 (30_encoding.md R184). -/
def decodeType21 (w : Nat) : Decoded :=
  if w / 32 % 2048 = 0 then .instr (.modify (w / 16 % 2 == 1) (BitVec.ofNat 2 (w / 4 % 4)) (BitVec.ofNat 2 (w % 4)))
  else .reserved .nonZeroFixed

/-- Type 23: DIVQ (30_encoding.md R185). -/
def decodeType23 (w : Nat) : Decoded :=
  if w / 2048 % 32 = 2 ∧ w % 256 = 0 then .instr (.divq (Xop.ofCode (w / 256 % 8)))
  else .reserved .nonZeroFixed

/-- Type 24: DIVS; only the Y codes 01 and 10 (30_encoding.md R185, R192; 40_alu.md R258). -/
def decodeType24 (w : Nat) : Decoded :=
  if w / 8192 % 8 = 0 ∧ w % 256 = 0 then
    match DivY.ofCode (w / 2048 % 4) with
    | some y => .instr (.divs y (Xop.ofCode (w / 256 % 8)))
    | none => .reserved .divsY
  else .reserved .nonZeroFixed

/-- Type 25: SAT MR, a single word (30_encoding.md R185). -/
def decodeType25 (w : Nat) : Decoded :=
  if w % 65536 = 0 then .instr .satMr else .reserved .nonZeroFixed

/-- Type 26: stack control, ENA INTS and DIS INTS (30_encoding.md R186, R192). The words 0x040041 and 0x040061, an interrupt field
of 10 or 11 beside Spp = 01, are refused like those with a stack action (DESIGN CHOICE, notes/assumptions/27.md). -/
def decodeType26 (w : Nat) : Decoded :=
  if w % 65536 = 96 then .instr .enaInts
  else if w % 65536 = 64 then .instr .disInts
  else if w / 128 % 512 = 0 then
    if w / 64 % 2 = 0 then .instr (.stackControl (w / 32 % 2 == 1) (w / 16 % 2 == 1) (w / 8 % 2 == 1) (w / 4 % 2 == 1) (StsOp.ofCode (w % 4)))
    else .reserved .intStack
  else .reserved .nonZeroFixed

/-- Type 27: JUMP and CALL on the flag-in pin (30_encoding.md R187). -/
def decodeType27 (w : Nat) : Decoded :=
  let addr : Addr := BitVec.ofNat 14 (w / 4 % 4 * 4096 + w / 16 % 4096)
  if w % 2 = 0 then .instr (.jumpFlagIn addr (w / 2 % 2 == 1))
  else .instr (.callFlagIn addr (w / 2 % 2 == 1))

/-- Types 28 and 31: modify flag out, IDLE and IDLE (n) (30_encoding.md R188, R190). -/
def decodeType28 (w : Nat) : Decoded :=
  if w / 32768 % 2 = 0 then
    if w / 4096 % 8 = 0 then .instr (.flagOut (FlagOp.ofCode (w / 1024 % 4)) (FlagOp.ofCode (w / 256 % 4)) (FlagOp.ofCode (w / 64 % 4)) (FlagOp.ofCode (w / 16 % 4)) (Cond.ofCode (w % 16)))
    else .reserved .nonZeroFixed
  else if w / 16 % 2048 = 0 then
    if w % 16 = 0 then .instr .idle
    else .ofOption .slowDiv ((SlowDiv.ofCode (w % 16)).map Instr.idleSlow)
  else .reserved .nonZeroFixed

/-- Type 29: I/O space access (30_encoding.md R189). -/
def decodeType29 (w : Nat) : Decoded :=
  if w / 32768 % 2 = 0 then .instr (.ioRead (BitVec.ofNat 11 (w / 16 % 2048)) (Dreg.ofCode (w % 16)))
  else .instr (.ioWrite (BitVec.ofNat 11 (w / 16 % 2048)) (Dreg.ofCode (w % 16)))

/-- Type 30: NOP, a single word (30_encoding.md R190). -/
def decodeType30 (w : Nat) : Decoded :=
  if w % 65536 = 0 then .instr .nop else .reserved .nonZeroFixed

/-- The sixteen types whose leading bits are 0000 (30_encoding.md R161). -/
def decodeLow (w : Nat) : Decoded :=
  match w / 65536 with
  | 0 => decodeType30 w
  | 1 => decodeType29 w
  | 2 => decodeType28 w
  | 3 => decodeType27 w
  | 4 => decodeType26 w
  | 5 => decodeType25 w
  | 6 => decodeType24 w
  | 7 => decodeType23 w
  | 8 => .instr (.type22 (BitVec.ofNat 16 (w % 65536)))
  | 9 => decodeType21 w
  | 10 => decodeType20 w
  | 11 => decodeType19 w
  | 12 => decodeType18 w
  | 13 => decodeType17 w
  | 14 => decodeType16 w
  | _ => decodeType15 w

/-- The decoder on the number a 24-bit word is: type identification by the leading bits (30_encoding.md R161). -/
def decodeNat (w : Nat) : Decoded :=
  if 12582912 ≤ w then decodeType1 w
  else if 10485760 ≤ w then .instr (.storeDmImm (w / 1048576 % 2 == 1) (BitVec.ofNat 16 (w / 16 % 65536)) (BitVec.ofNat 2 (w / 4 % 4)) (BitVec.ofNat 2 (w % 4)))
  else if 8388608 ≤ w then decodeType3 w
  else if 6291456 ≤ w then decodeType4 w
  else if 5242880 ≤ w then decodeType5 w
  else if 4194304 ≤ w then .instr (.loadDregImm (BitVec.ofNat 16 (w / 16 % 65536)) (Dreg.ofCode (w % 16)))
  else if 3145728 ≤ w then decodeType7 w
  else if 2621440 ≤ w then decodeType8 w
  else if 2097152 ≤ w then decodeType9 w
  else if 1572864 ≤ w then decodeType10 w
  else if 1310720 ≤ w then .instr (.doUntil (BitVec.ofNat 14 (w / 16 % 16384)) (Term.ofCode (w % 16)))
  else if 1179648 ≤ w then decodeType12 w
  else if 1114112 ≤ w then decodeType13 w
  else if 1048576 ≤ w then decodeType14 w
  else decodeLow w

/-- The decoder. -/
def decode (w : PmWord) : Decoded := decodeNat w.toNat

/-- The instruction the decoder reads from a word numbered as spec/opcode_table.json numbers it; every instruction is
one 24-bit word (30_encoding.md R160). -/
def decodeTableWord (nbits w : Nat) : Option Instr :=
  if nbits ≤ 24 then
    match decode (BitVec.ofNat 24 w) with
    | .instr i => some i
    | .reserved _ => none
  else none

end Sys2Proof
end

