-- ==== Sys2Proof/Machine/State.lean ====
section
/-!
DEFINITION. The machine's state (10_state.md), the reasons a step stops, and the state after reset. Plain data: every
piece of state the spec names has one home here; the model's own bookkeeping fields are marked MODEL.
-/

namespace Sys2Proof.Machine

/-! ### Registers -/

/-- One bank of the computational registers (10_state.md R20 to R25). -/
structure Bank where
  ax0 : Word
  ax1 : Word
  ay0 : Word
  ay1 : Word
  ar : Word
  af : Word
  mx0 : Word
  mx1 : Word
  my0 : Word
  my1 : Word
  mf : Word
  mr0 : Word
  mr1 : Word
  mr2 : BitVec 8
  si : Word
  se : BitVec 8
  sb : BitVec 5
  sr0 : Word
  sr1 : Word
  deriving DecidableEq, Repr

/-- The data address generators: I0 to I7, M0 to M7, L0 to L7 (10_state.md R27). -/
structure Dag where
  i : Vector Addr 8
  m : Vector Addr 8
  l : Vector Addr 8
  deriving DecidableEq, Repr

/-- One hardware stack: the entries held, newest first, the excess of pushes over pops since reset, and the sticky
overflow bit (10_state.md R60, R64, R65). `flip` is MODEL: the empty bit of SSTAT reads inverted, where the spec leaves SSTAT
at any value (93_implementation_defined.md U31, U32); a push or a pop ends it. -/
structure Stack (α : Type) where
  entries : List α
  n : Int
  ovf : Bool
  flip : Bool
  deriving DecidableEq, Repr

/-- The empty stack without overflow. -/
def Stack.empty {α : Type} : Stack α := { entries := [], n := 0, ovf := false, flip := false }

/-- A loop stack entry: the last address and the termination condition (10_state.md R62). `first`, the address after
the DO UNTIL, is MODEL: it says where a loop body lies for DIVQ (70_reset_and_hazards.md R712). -/
structure LoopEntry where
  last : Addr
  term : Term
  first : Addr
  deriving DecidableEq, Repr

/-- A status stack entry (10_state.md R63). -/
structure StsEntry where
  astat : BitVec 8
  mstat : BitVec 7
  imask : BitVec 10
  deriving DecidableEq, Repr

/-- The program sequencer (10_state.md R29, R30, R60 to R63, R71, R73). -/
structure Seq where
  pc : Addr
  cntr : Addr
  cntrValid : Bool
  pcStk : Stack Addr
  cntStk : Stack Addr
  loopStk : Stack LoopEntry
  stsStk : Stack StsEntry
  /-- The prefetched instruction (R71); `none` when nothing is prefetched and the next step fetches for itself. -/
  prefetch : Option PmWord
  deriving DecidableEq, Repr

/-- Status and control registers that are not memory-mapped (10_state.md R31 to R38). SSTAT is computed from the
stacks, IFC is a command port. -/
structure Status where
  astat : BitVec 8
  mstat : BitVec 7
  imask : BitVec 10
  icntl : BitVec 5
  /-- The global interrupt enable (R37). -/
  intEnable : Bool
  pmovlay : BitVec 4
  dmovlay : BitVec 4
  deriving DecidableEq, Repr

/-- Interrupt requests and pins (10_state.md R70; 60_exceptions.md R521 to R524; 61_peripherals.md R644). Bit k is
level k; a pin bit of 1 is a high pin. -/
structure Irq where
  latch : BitVec 10
  latchPwd : Bool
  pins : BitVec 10
  pwdPin : Bool
  /-- `pd_seq`: a powerdown sequence is in progress. -/
  pdSeq : Bool
  /-- The sequence in progress was started by PDFORCE. -/
  pdForced : Bool
  /-- Cycles until a timer request may be taken (60_exceptions.md R545, R561). -/
  timerWait : Nat
  deriving DecidableEq, Repr

/-- MODEL. Which sequencer resources the instruction being executed has used; cleared when it ends. It is how the
collisions of 70_reset_and_hazards.md R702, R703, R705, R707 are seen. -/
structure Use where
  pcStack : Bool
  retPop : Bool
  ceTest : Bool
  cntr : Bool
  count : Bool
  loop : Bool
  /-- A DO UNTIL found a stack full (45_misc.md R462). -/
  full : Bool
  /-- `reg = TOPPCSTACK` (70_reset_and_hazards.md R703). -/
  top : Bool
  deriving DecidableEq, Repr

/-- The one-cycle latency buffers (10_state.md R72). Of a pair `xNew`, `xDue` the first is set by an instruction, and
the second acts at the end of the instruction after it. -/
structure Lat where
  imaskNew : Bool
  imaskHold : Bool
  /-- The ICNTL that interrupt recognition uses (60_exceptions.md R525). -/
  icntlEff : BitVec 5
  ifcNew : BitVec 16
  ifcDue : BitVec 16
  popNew : Bool
  popDue : Bool
  pdNew : Bool
  pdDue : Bool
  /-- This instruction, the one before it, and the one before that was `TOPPCSTACK = reg` (R705). -/
  pushNew : Bool
  push1 : Bool
  push2 : Bool
  /-- MODEL. TCOUNT was written by this instruction (60_exceptions.md R560). -/
  tcountSet : Bool
  use : Use
  deriving DecidableEq, Repr

/-! ### Memory -/

/-- All memories in one list of (address, byte) pairs, addresses strictly rising, no byte zero; an unlisted address
reads as zero (notes/assumptions/2.md). The layout is in Machine/Memory.lean. -/
abbrev Memory := List Host.Cell

/-! ### Devices -/

/-- The timer (10_state.md R44, R74). -/
structure Timer where
  tperiod : Word
  tcount : Word
  tscale : BitVec 8
  tps : BitVec 8
  deriving DecidableEq, Repr

/-- The word a serial port is shifting in: none, or one the environment has said to have begun, `mixed` when the format or the
framing has been changed under it (62_serial_ports.md R584, U61). -/
inductive Transit where
  | idle | shifting | mixed
  deriving DecidableEq, Repr

/-- A serial port: data registers (10_state.md R39), memory-mapped registers (R45, R46, R48, R49), hidden state (R77),
the two one-deep autobuffer requests (62_serial_ports.md R599) and the companding latency (R593): `expBusy` says that a word
received uses the expansion circuit in this cycle, which is of effect for SPORT0. `sclkCnt` and `rfsCnt` are the clock and frame sync divide counters, `divCur` the divisor of the clock period in progress (R583, R585). -/
structure Sport where
  rx : Word
  tx : Word
  ctl : Word
  sclkdiv : Word
  rfsdiv : Word
  auto : Word
  tsr : Word
  rsr : Word
  txFull : Bool
  txReq : Bool
  rxReq : Bool
  compNew : Bool
  compDue : Bool
  expNew : Bool
  expDue : Bool
  expBusy : Bool
  divCur : Word
  sclkCnt : Nat
  rfsCnt : Nat
  transit : Transit
  deriving DecidableEq, Repr

/-- SPORT0 multichannel word enables and word counter (10_state.md R47, R77). -/
structure Multi where
  rxEn : BitVec 32
  txEn : BitVec 32
  slot : Nat
  deriving DecidableEq, Repr

/-- The BDMA controller (10_state.md R52 to R54; 61_peripherals.md R611). `wait` counts the cycles of the byte
accesses left before the next word (R617); `bcrStart` is BCR when the transfer was started. -/
structure Bdma where
  ctl : Word
  bwcount : Addr
  bead : Addr
  biad : Addr
  active : Bool
  wait : Nat
  bcrStart : Bool
  deriving DecidableEq, Repr

/-- Which half of a Program Memory word the IDMA port expects (10_state.md R75). -/
inductive IdmaHalf where
  | first | secondRead | secondWrite
  deriving DecidableEq, Repr

/-- A host access to the IDMA port (61_peripherals.md R626 to R628). -/
inductive IdmaOp where
  | read
  | write (v : Word)
  | latch (v : Word)
  deriving DecidableEq, Repr

/-- The IDMA port (10_state.md R55, R56, R75). `out` is the word the host receives; `pend` is an access that waits for
an instruction boundary or for the end of powerdown (61_peripherals.md R632, R635). `coreWrote` is MODEL: the core has written
IDMA Control or IDMA Overlay in the turn a host latch falls into (R55, U5). -/
structure Idma where
  addr : Addr
  toDm : Bool
  ovl : Word
  half : IdmaHalf
  holding : Word
  readBuf : PmWord
  out : Word
  pend : Option IdmaOp
  coreWrote : Bool
  deriving DecidableEq, Repr

/-- Flag pins (10_state.md R40, R50, R51; 61_peripherals.md R650 to R652). -/
structure Flags where
  fl0 : Bool
  fl1 : Bool
  fl2 : Bool
  fo : Bool
  fi : Bool
  pfOut : BitVec 8
  pfIn : BitVec 8
  deriving DecidableEq, Repr

/-- The remaining memory-mapped registers: System Control (10_state.md R42), Wait State Control (R43), Programmable
Flag and Composite Select Control (R50). -/
structure Ctl where
  sysCtl : Word
  waitCtl : Word
  pfCtl : Word
  deriving DecidableEq, Repr

/-- The core states of 10_state.md R78 and 70_reset_and_hazards.md R690. Halted for a bus grant is the state the core was
halted from, with `State.bg`. -/
inductive CoreState where
  | running
  | idle (div : Nat)
  | powerDown
  | heldBdma
  | heldIdma
  | inReset
  deriving DecidableEq, Repr

/-- I/O space: the words the board presents (an unlisted address presents any value) and the writes it has received,
newest first (20_memory.md R103). -/
structure Io where
  present : List (BitVec 11 × Word)
  out : List (BitVec 11 × Word)
  deriving DecidableEq, Repr

/-- The external Program Memory words that an instruction, stopped between two of its accesses, has already read, each with
its place: the next instruction, and the Program Memory data word (70_reset_and_hazards.md R721, R731). -/
structure Held where
  fetch : Option (Nat × PmWord)
  pm : Option (Nat × PmWord)
  deriving DecidableEq, Repr

/-- What the outside world does, at an instruction boundary but for the two events that say otherwise (61_peripherals.md R580;
00_scope.md R11). -/
inductive Event where
  /-- Nothing: the core takes its step. -/
  | go
  | irqPin (level : Fin 10) (high : Bool)
  | pwdPin (high : Bool)
  | fiSample (b : Bool)
  | pfInput (v : BitVec 8)
  | sportTx (n : Fin 2)
  | sportRx (n : Fin 2) (w : Word)
  /-- The first bit of a word arrives, which a later `sportRx` or `mcSlot` delivers; needed only for a word under which the
  control register is written (62_serial_ports.md R584, U61). -/
  | sportRxStart (n : Fin 2)
  /-- RFS0 opens a multichannel block (62_serial_ports.md R602). -/
  | mcSync
  /-- One multichannel word slot; `w` is the word on DR0. -/
  | mcSlot (w : Word)
  | idmaLatch (v : Word)
  | idmaRead
  | idmaWrite (v : Word)
  /-- The host latches in the cycle of the core's next turn (10_state.md R55, U5). -/
  | idmaLatchAmid (v : Word)
  | busRequest (b : Bool)
  /-- BR is asserted in the core's next turn, after `k` + 1 of its external accesses (70_reset_and_hazards.md R731). -/
  | busRequestAmid (k : Nat)
  /-- A write by the external bus master while the bus is granted (20_memory.md R137). -/
  | masterPm (page2 : Bool) (off : BitVec 13) (w : PmWord)
  | masterDm (page2 : Bool) (off : BitVec 13) (w : Word)
  | masterBm (a : BitVec 22) (v : Byte)
  | ioPresent (a : BitVec 11) (w : Word)
  | resetAssert
  | resetRelease (pins : BitVec 4)
  deriving DecidableEq, Repr

/-! ### The state -/

/-- The state of one ADSP-218x and of its interface to the outside. -/
structure State where
  cfg : Cfg
  /-- The primary and the secondary register bank (R22). -/
  pri : Bank
  sec : Bank
  dag : Dag
  px : BitVec 8
  seq : Seq
  st : Status
  irq : Irq
  lat : Lat
  timer : Timer
  ctl : Ctl
  sp0 : Sport
  sp1 : Sport
  mc : Multi
  bdma : Bdma
  idma : Idma
  flags : Flags
  core : CoreState
  /-- The mode latch (R76): bits 3 to 0 are Mode D, C, B, A; on the ADSP-2181 and 2183 bit 1 is MMAP, bit 0 BMODE. -/
  pins : BitVec 4
  /-- An external master holds BR asserted (20_memory.md R137). -/
  br : Bool
  /-- The bus is granted (BG asserted). -/
  bg : Bool
  /-- The instruction at the PC has been stopped, in its middle, for the bus (70_reset_and_hazards.md R731). -/
  stalled : Bool
  held : Held
  /-- MODEL. BR is to be granted after this many external accesses of the instruction in progress; 0 for none. -/
  amid : Nat
  mem : Memory
  io : Io
  /-- MODEL. What the outside world will do, one event a step; when it is empty nothing more happens outside. -/
  env : List Event
  /-- MODEL. The counter free values are drawn with; it rises by one every step. -/
  freeCtr : Nat
  /-- MODEL. Processor cycles counted by the costs of 70_reset_and_hazards.md R720 to R723. -/
  clock : Nat
  deriving DecidableEq, Repr

/-! ### Why a step stops -/

/-- The reasons a step ends in a fault: none. The ADSP-218x has no fault, trap or exception mechanism of any kind
(60_exceptions.md R520; 93_implementation_defined.md: fault is never used). -/
inductive Fault where
  deriving DecidableEq, Repr

/-- The reasons the model gives a step no meaning. Each is a case 93_implementation_defined.md says to refuse; all are
safe: the model stops where the hardware would go on. -/
inductive Refusal where
  /-- Raised by `exec` for an instruction without a meaning. Safe. -/
  | notModelled (mnemonic : String)
  /-- Raised by the step on a reserved word, and by Type 22 (30_encoding.md R192, D2, U16). Safe. -/
  | reservedWord (r : Reserved)
  /-- Raised by the step when it fetches where the member has no memory (20_memory.md R106, U12). Safe. -/
  | unpopulatedFetch
  /-- Raised by a serial port word event with SLEN 0 or 1 (62_serial_ports.md R584, U60). Safe. -/
  | slenNotPermitted
  /-- Raised by IDLE entering powerdown with a BDMA transfer active (61_peripherals.md R641 (e), U52). Safe. -/
  | powerdownDuringBdma
  /-- Raised by a BDMA word when BCR was set after a transfer started with BCR clear (R615, U44). Safe. -/
  | bcrSetMidTransfer
  /-- Raised by a host access where the member or the mode has no IDMA port (R625). Safe. -/
  | noIdmaPort
  /-- Raised by a host access during a BDMA boot or a BCR transfer (R632, U51). Safe. -/
  | idmaDuringBdma
  /-- Raised by a host access started before the previous one completed (R632, U50). Safe. -/
  | idmaBusy
  /-- Raised by a reset release with mode pins the tables leave out (70_reset_and_hazards.md R681, U68). Safe. -/
  | modePinsNotDescribed
  deriving DecidableEq, Repr

/-- What one step or one instruction answers. -/
abbrev Result := Host.Outcome State Fault Refusal

/-! ### Reset -/

/-- Registers of a bank at reset: the spec gives none (R80), the model takes zero (notes/assumptions/1.md). -/
def Bank.reset : Bank :=
  { ax0 := 0, ax1 := 0, ay0 := 0, ay1 := 0, ar := 0, af := 0, mx0 := 0, mx1 := 0, my0 := 0, my1 := 0, mf := 0,
    mr0 := 0, mr1 := 0, mr2 := 0, si := 0, se := 0, sb := 0, sr0 := 0, sr1 := 0 }

/-- DAG registers at reset: the spec gives none (R80), the model takes zero (notes/assumptions/1.md). -/
def Dag.reset : Dag :=
  { i := #v[0, 0, 0, 0, 0, 0, 0, 0], m := #v[0, 0, 0, 0, 0, 0, 0, 0], l := #v[0, 0, 0, 0, 0, 0, 0, 0] }

/-- The sequencer at reset: PC 0, the stacks empty, the counter invalid (R80). -/
def Seq.reset : Seq :=
  { pc := 0, cntr := 0, cntrValid := false, pcStk := .empty, cntStk := .empty, loopStk := .empty, stsStk := .empty,
    prefetch := none }

/-- Nothing used. -/
def Use.none : Use :=
  { pcStack := false, retPop := false, ceTest := false, cntr := false, count := false, loop := false,
    full := false, top := false }

/-- No one-cycle action pending (R72). -/
def Lat.none (icntl : BitVec 5) : Lat :=
  { imaskNew := false, imaskHold := false, icntlEff := icntl, ifcNew := 0, ifcDue := 0, popNew := false,
    popDue := false, pdNew := false, pdDue := false, pushNew := false, push1 := false, push2 := false,
    tcountSet := false, use := .none }

/-- A serial port at reset: the control register and RBUF, TBUF cleared (R80); the rest zero (notes/assumptions/1.md). -/
def Sport.reset : Sport :=
  { rx := 0, tx := 0, ctl := 0, sclkdiv := 0, rfsdiv := 0, auto := 0, tsr := 0, rsr := 0, txFull := false,
    txReq := false, rxReq := false, compNew := false, compDue := false, expNew := false, expDue := false,
    expBusy := false, divCur := 0, sclkCnt := 0, rfsCnt := 0, transit := .idle }

/-- Nothing read. -/
def Held.none : Held := { fetch := Option.none, pm := Option.none }

/-- The parameters of the reset state: the default readings of 93_implementation_defined.md section 2, the member
ADSP-2188N and a status stack of 12 entries (notes/assumptions/3.md). -/
def Cfg.default : Cfg :=
  { member := .adsp2188N, stsDepth := 12, aluSatFlags := false, macUUSignExt := false, type1LoadsPx := true,
    callNotCeCounts := true, goModeBdmaHalts := false }

/-- The machine right after reset: the register values of 10_state.md R80 and, the mode pins selecting it, the BDMA
boot just begun (70_reset_and_hazards.md R680 to R682; notes/assumptions/3.md, 4.md). -/
def State.reset : State :=
  { cfg := Cfg.default
    pri := .reset
    sec := .reset
    dag := .reset
    px := 0
    seq := .reset
    st := { astat := 0, mstat := 0, imask := 0, icntl := 0, intEnable := true, pmovlay := 0, dmovlay := 0 }
    irq := { latch := 0, latchPwd := false, pins := 0x3FF, pwdPin := true, pdSeq := false, pdForced := false,
             timerWait := 0 }
    lat := .none 0
    timer := { tperiod := 0, tcount := 0, tscale := 0, tps := 0 }
    ctl := { sysCtl := 0x0407, waitCtl := 0xFFFF, pfCtl := 0xFB00 }
    sp0 := .reset
    sp1 := .reset
    mc := { rxEn := 0, txEn := 0, slot := 0 }
    bdma := { ctl := 0x0008, bwcount := 0x20, bead := 0, biad := 0, active := true, wait := 48, bcrStart := true }
    idma := { addr := 0, toDm := false, ovl := 0, half := .first, holding := 0, readBuf := 0, out := 0, pend := none,
              coreWrote := false }
    flags := { fl0 := true, fl1 := true, fl2 := true, fo := false, fi := false, pfOut := 0, pfIn := 0 }
    core := .heldBdma
    pins := 0
    br := false
    bg := false
    stalled := false
    held := .none
    amid := 0
    mem := []
    io := { present := [], out := [] }
    env := []
    freeCtr := 0
    clock := 0 }

end Sys2Proof.Machine
end

