-- ==== Sys2Proof/Machine/Flags.lean ====
section
/-!
DEFINITION. Bits of status registers, the conditions, and every flag computation: the ALU adder and logic (40_alu.md
R222, R236), saturation and the overflow latch (R225, R263, R264), and the MAC overflow (41_mac.md R289).
-/

namespace Sys2Proof.Machine

/-! ### Bits -/

/-- `v` with bit `k` made `b`. -/
def putBit {w : Nat} (v : BitVec w) (k : Nat) (b : Bool) : BitVec w :=
  if b then v ||| BitVec.ofNat w (2 ^ k) else v &&& ~~~(BitVec.ofNat w (2 ^ k))

/-- `v` with the bits of `mask` replaced by those of `open_`. -/
def openBits {w : Nat} (mask v open_ : BitVec w) : BitVec w := (v &&& ~~~mask) ||| (open_ &&& mask)

/-- The field of `v` at bits `lo` and up, `n` bits, as a number. -/
def field {w : Nat} (v : BitVec w) (lo n : Nat) : Nat := v.toNat / 2 ^ lo % 2 ^ n

/-! ### ASTAT (10_state.md R31) -/

/-- ALU result zero. -/
def astatAZ (a : BitVec 8) : Bool := a.getLsbD 0
/-- ALU result negative. -/
def astatAN (a : BitVec 8) : Bool := a.getLsbD 1
/-- ALU overflow. -/
def astatAV (a : BitVec 8) : Bool := a.getLsbD 2
/-- ALU carry. -/
def astatAC (a : BitVec 8) : Bool := a.getLsbD 3
/-- Sign of the ALU X input. -/
def astatAS (a : BitVec 8) : Bool := a.getLsbD 4
/-- Quotient bit. -/
def astatAQ (a : BitVec 8) : Bool := a.getLsbD 5
/-- MAC overflow. -/
def astatMV (a : BitVec 8) : Bool := a.getLsbD 6
/-- Shifter input sign. -/
def astatSS (a : BitVec 8) : Bool := a.getLsbD 7

/-! ### MSTAT (10_state.md R32) -/

/-- The secondary register bank is selected. -/
def State.secReg (s : State) : Bool := s.st.mstat.getLsbD 0
/-- DAG1 addresses are bit-reversed. -/
def State.bitRev (s : State) : Bool := s.st.mstat.getLsbD 1
/-- AV is sticky. -/
def State.avLatch (s : State) : Bool := s.st.mstat.getLsbD 2
/-- AR saturates. -/
def State.arSat (s : State) : Bool := s.st.mstat.getLsbD 3
/-- The MAC places integer products. -/
def State.mMode (s : State) : Bool := s.st.mstat.getLsbD 4
/-- The timer is enabled. -/
def State.timerOn (s : State) : Bool := s.st.mstat.getLsbD 5
/-- Go mode. -/
def State.goMode (s : State) : Bool := s.st.mstat.getLsbD 6

/-! ### Conditions (30_encoding.md R176, R177) -/

/-- A condition on ASTAT and the counter as they stand at the start of the instruction (R176); NOT CE here only tests
the counter (44_program_flow.md R412). -/
def condTrue (c : Cond) (a : BitVec 8) (cntr : Addr) : Bool :=
  match c with
  | .eq => astatAZ a
  | .ne => !astatAZ a
  | .gt => !((astatAN a ^^ astatAV a) || astatAZ a)
  | .le => (astatAN a ^^ astatAV a) || astatAZ a
  | .lt => astatAN a ^^ astatAV a
  | .ge => !(astatAN a ^^ astatAV a)
  | .av => astatAV a
  | .notAv => !astatAV a
  | .ac => astatAC a
  | .notAc => !astatAC a
  | .neg => astatAS a
  | .pos => !astatAS a
  | .mv => astatMV a
  | .notMv => !astatMV a
  | .notCe => cntr != 1
  | .always => true

/-- The condition in state `s`. -/
def State.cond (s : State) (c : Cond) : Bool := condTrue c s.st.astat s.seq.cntr

/-- The condition with the code of a termination condition: TERM k is true exactly when COND k is false (R177). -/
def termComplement : Term → Cond
  | .ne => .eq | .eq => .ne | .le => .gt | .gt => .le | .ge => .lt | .lt => .ge | .notAv => .av | .av => .notAv
  | .notAc => .ac | .ac => .notAc | .pos => .neg | .neg => .pos | .notMv => .mv | .mv => .notMv
  | .ce => .notCe | .forever => .always

/-- A termination condition; CE is handled by the counting test (44_program_flow.md R421). -/
def termTrue (t : Term) (a : BitVec 8) (cntr : Addr) : Bool := !condTrue (termComplement t) a cntr

/-! ### The ALU's outputs (40_alu.md R222) -/

/-- What one pass of the ALU gives: the value and the four signals. -/
structure AluOut where
  r : Word
  az : Bool
  an : Bool
  ovf : Bool
  carry : Bool
  deriving DecidableEq, Repr

/-- The 16-bit adder (40_alu.md R222). -/
def add3 (a b : Word) (cin : Bool) : AluOut :=
  let s17 := a.toNat + b.toNat + cin.toNat
  let r := BitVec.ofNat 16 s17
  { r := r
    az := r == 0
    an := r.getLsbD 15
    ovf := (a.getLsbD 15 ^^ r.getLsbD 15) && (b.getLsbD 15 ^^ r.getLsbD 15)
    carry := decide (65536 ≤ s17) }

/-- The outputs of a logical function or PASS: overflow and carry are 0 (40_alu.md R225, R236, R240). -/
def logic (r : Word) : AluOut := { r := r, az := r == 0, an := r.getLsbD 15, ovf := false, carry := false }

/-- ABS (40_alu.md R248). -/
def absOut (x : Word) : AluOut :=
  let r := if x.getLsbD 15 then 0 - x else x
  { r := r, az := r == 0, an := x == 0x8000, ovf := x == 0x8000, carry := false }

/-- The ALU function of a code on its operands and the carry (40_alu.md R222, R223 to R254). -/
def aluEval (fn : AluFn) (x y : Word) (c : Bool) : AluOut :=
  match fn with
  | .passY => logic y
  | .incY => add3 y 0 true
  | .addC => add3 x y c
  | .add => add3 x y false
  | .notY => logic (~~~y)
  | .negY => add3 0 (~~~y) true
  | .subBorrow => add3 x (~~~y) c
  | .sub => add3 x (~~~y) true
  | .decY => add3 y 0xFFFF false
  | .rsub => add3 y (~~~x) true
  | .rsubBorrow => add3 y (~~~x) c
  | .notX => logic (~~~x)
  | .and => logic (x &&& y)
  | .or => logic (x ||| y)
  | .xor => logic (x ^^^ y)
  | .abs => absOut x

/-- The value AR takes under AR_SAT when the adder overflows (40_alu.md R264). -/
def satValue (carry : Bool) : Word := if carry then 0x8000 else 0x7FFF

/-- The value AR takes: saturated if the mode is on and the adder overflowed (40_alu.md R225, R264). -/
def arValue (sat : Bool) (o : AluOut) : Word := if sat && o.ovf then satValue o.carry else o.r

/-- AZ and AN: from the adder's output, or, with ALU_SAT_FLAGS_FROM_SATURATED, from the saturated value (R264, D18). -/
def aluZN (fromSat sat : Bool) (o : AluOut) : Bool × Bool :=
  if fromSat && sat && o.ovf then (false, o.carry) else (o.az, o.an)

/-- ASTAT after an ALU operation (40_alu.md R225, R263). -/
def aluFlags (fromSat sat avLatch : Bool) (a : BitVec 8) (o : AluOut) : BitVec 8 :=
  let zn := aluZN fromSat sat o
  putBit (putBit (putBit (putBit a 0 zn.1) 1 zn.2) 2 (if avLatch then astatAV a || o.ovf else o.ovf)) 3 o.carry

/-! ### The MAC's outputs (41_mac.md) -/

/-- MV of a 40-bit result: bits 39:31 are not all equal (41_mac.md R289). -/
def mvOf (r : BitVec 40) : Bool := !(r.toNat / 2 ^ 31 == 0 || r.toNat / 2 ^ 31 == 511)

end Sys2Proof.Machine
end

