-- ==== Sys2Proof/Machine/Member.lean ====
section
/-!
DEFINITION. What each family member has (00_scope.md R5).
-/

namespace Sys2Proof

/-- The memory groups of R5: members of one group have the same on-chip memories and overlay pages. -/
inductive MemClass where
  | k4 | k8 | k16 | c2187 | c2188 | c2189
  deriving DecidableEq, Repr

/-- The memory group of a member (00_scope.md R5, rows PM_RAM and DM_RAM). -/
def Member.memClass : Member → MemClass
  | .adsp2184 | .adsp2184L | .adsp2184N => .k4
  | .adsp2186 | .adsp2186L | .adsp2186M | .adsp2186N => .k8
  | .adsp2181 | .adsp2183 | .adsp2185 | .adsp2185L | .adsp2185M | .adsp2185N => .k16
  | .adsp2187L | .adsp2187N => .c2187
  | .adsp2188M | .adsp2188N => .c2188
  | .adsp2189M | .adsp2189N => .c2189

/-- PM_INT_OVL of R5: the internal Program Memory overlay pages. -/
def Member.pmPages (m : Member) : List Nat :=
  match m.memClass with
  | .k4 | .k8 => []
  | .k16 => [0]
  | .c2187 | .c2189 => [0, 4, 5]
  | .c2188 => [0, 4, 5, 6, 7]

/-- DM_INT_OVL of R5: the internal Data Memory overlay pages. -/
def Member.dmPages (m : Member) : List Nat :=
  match m.memClass with
  | .k4 | .k8 => []
  | .k16 => [0]
  | .c2187 => [0, 4, 5]
  | .c2189 => [0, 4, 5, 6, 7]
  | .c2188 => [0, 4, 5, 6, 7, 8]

/-- PM_RAM of R5, in words. -/
def Member.pmRam (m : Member) : Nat :=
  match m.memClass with
  | .k4 => 0x1000
  | .k8 => 0x2000
  | .k16 => 0x4000
  | .c2187 | .c2189 => 0x8000
  | .c2188 => 0xC000

/-- DM_RAM of R5, in words. -/
def Member.dmRam (m : Member) : Nat :=
  match m.memClass with
  | .k4 => 0x1000
  | .k8 => 0x2000
  | .k16 => 0x4000
  | .c2187 => 0x8000
  | .c2189 => 0xC000
  | .c2188 => 0xE000

/-- Members of the M and N series: HAS_2N1, a four-bit BMWAIT and WAIT_MAX 15 (R5). -/
def Member.isMN : Member → Bool
  | .adsp2184N | .adsp2185M | .adsp2185N | .adsp2186M | .adsp2186N | .adsp2187N
  | .adsp2188M | .adsp2188N | .adsp2189M | .adsp2189N => true
  | _ => false

/-- HAS_IDMA_OVL of R5: the IDMA Overlay register and the BMOVLAY field exist. -/
def Member.hasIdmaOvl (m : Member) : Bool :=
  match m.memClass with
  | .c2187 | .c2188 | .c2189 => true
  | _ => false

/-- HAS_BMS_DISABLE of R5. -/
def Member.hasBmsDisable : Member → Bool
  | .adsp2181 | .adsp2183 | .adsp2185 => false
  | _ => true

/-- HAS_MODE_PINS_ABCD of R5: all members but the ADSP-2181 and ADSP-2183. -/
def Member.hasModePins : Member → Bool
  | .adsp2181 | .adsp2183 => false
  | _ => true

end Sys2Proof
end

