-- ==== Sys2Proof/Machine/Memory.lean ====
section
/-!
DEFINITION. Memory: the canonical list of bytes, the places the address spaces have in it, and what an access to
Program Memory, Data Memory or Byte Memory reaches (20_memory.md R100 to R118). Memory-mapped registers are in Mmr.lean.
-/

namespace Sys2Proof.Machine

/-! ### The list -/

/-- The byte at a place; an unlisted place reads as zero. -/
def memGet : Memory → Nat → Byte
  | [], _ => 0
  | (k, v) :: rest, a => if k = a then v else memGet rest a

/-- A byte written at a place; writing zero removes the entry. -/
def memSet : Memory → Nat → Byte → Memory
  | [], a, v => if v = 0 then [] else [(a, v)]
  | (k, w) :: rest, a, v =>
    if a < k then (if v = 0 then (k, w) :: rest else (a, v) :: (k, w) :: rest)
    else if a = k then (if v = 0 then rest else (a, v) :: rest)
    else (k, w) :: memSet rest a v

/-- The canonical form: addresses strictly rising and no zero byte. -/
def Memory.wf : Memory → Bool
  | [] => true
  | [(_, v)] => v != 0
  | (k, v) :: (k', v') :: rest => v != 0 && decide (k < k') && Memory.wf ((k', v') :: rest)

/-- The 24-bit word at three bytes, the most significant lowest (20_memory.md R105). -/
def memGet24 (m : Memory) (a : Nat) : PmWord := memGet m a ++ memGet m (a + 1) ++ memGet m (a + 2)

/-- The 16-bit word at two bytes, the most significant lowest (20_memory.md R105). -/
def memGet16 (m : Memory) (a : Nat) : Word := memGet m a ++ memGet m (a + 1)

/-- A 16-bit word written, the most significant byte lowest. -/
def memSet16 (m : Memory) (a : Nat) (w : Word) : Memory :=
  memSet (memSet m a (w.extractLsb' 8 8)) (a + 1) (w.extractLsb' 0 8)

/-- A 24-bit word written, the most significant byte lowest. -/
def memSet24 (m : Memory) (a : Nat) (w : PmWord) : Memory :=
  memSet (memSet16 m a (w.extractLsb' 8 16)) (a + 2) (w.extractLsb' 0 8)

/-! ### Places

Program Memory banks of 8K words of three bytes from 0: fixed, internal pages 0, 4, 5, 6, 7, external overlays 1 and 2.
Data Memory banks of 8K words of two bytes from 0x40000: fixed, internal pages 0, 4, 5, 6, 7, 8, external overlays 1
and 2. Byte Memory from 0x400000. -/

/-- Where an access goes: the place of its lowest byte, and whether it is off-chip. -/
structure Loc where
  base : Nat
  ext : Bool
  deriving DecidableEq, Repr

/-- The bank of an internal Program Memory page. -/
def pmBank (page : Nat) : Nat := if page = 0 then 1 else page - 2

/-- The bank of an internal Data Memory page. -/
def dmBank (page : Nat) : Nat := if page = 0 then 1 else page - 2

/-- The place of a word of a Program Memory bank. -/
def pmPlace (bank off : Nat) : Nat := bank * 0x6000 + 3 * off

/-- The place of a word of a Data Memory bank. -/
def dmPlace (bank off : Nat) : Nat := 0x40000 + bank * 0x4000 + 2 * off

/-- The place of a byte of Byte Memory. -/
def bmPlace (a : BitVec 22) : Nat := 0x400000 + a.toNat

/-! ### The mode latch (70_reset_and_hazards.md R681) -/

/-- The three boots. -/
inductive Boot where
  | bdma | idma | none
  deriving DecidableEq, Repr

/-- The boot and the memory mode (`true` is Host Memory Mode) the mode pins select; `none` for the combinations the
tables leave out (U68). -/
def bootOf (m : Member) (pins : BitVec 4) : Option (Boot × Bool) :=
  if m.hasModePins then
    match field pins 0 3 with
    | 0 => some (.bdma, false)
    | 2 => some (.none, false)
    | 4 => some (.bdma, true)
    | 5 => some (.idma, true)
    | _ => none
  else if pins.getLsbD 1 then some (.none, false)
  else if pins.getLsbD 0 then some (.idma, false)
  else some (.bdma, false)

/-- Host Memory Mode (20_memory.md R118). -/
def State.hostMode (s : State) : Bool := s.cfg.member.hasModePins && s.pins.getLsbD 2

/-- The no-boot Program Memory map: Mode B or MMAP is 1 (20_memory.md R109). -/
def State.noBootMap (s : State) : Bool := s.pins.getLsbD 1

/-- The member has an IDMA port in the mode it is in (61_peripherals.md R625). -/
def State.hasIdmaPort (s : State) : Bool := !s.cfg.member.hasModePins || s.pins.getLsbD 2

/-! ### Resolution of an access -/

/-- An external location: overlay 1 or 2 (A13) and the 13 low address bits; in Host Memory Mode only A0 is visible
(20_memory.md R108, R118). -/
def State.extOff (s : State) (page off : Nat) : Nat × Nat := if s.hostMode then (1, off % 2) else (page, off)

/-- The place of an external Program Memory word. -/
def State.pmExt (s : State) (page off : Nat) : Loc :=
  let e := s.extOff page off
  { base := pmPlace (5 + e.1) e.2, ext := true }

/-- The place of an external Data Memory word. -/
def State.dmExt (s : State) (page off : Nat) : Loc :=
  let e := s.extOff page off
  { base := dmPlace (6 + e.1) e.2, ext := true }

/-- Where the core's Program Memory address `a` goes with PMOVLAY holding `page` (20_memory.md R107 to R110); `none`
where the member has no memory. In the no-boot map a page other than 0 resolves as in the normal map, which R109 and
70_reset_and_hazards.md R685 leave open (DESIGN CHOICE, notes/assumptions/47.md). -/
def State.pmLoc (s : State) (page : BitVec 4) (a : Addr) : Option Loc :=
  let n := a.toNat
  let p := page.toNat
  if n < 0x2000 then
    if s.noBootMap then some (s.pmExt 1 n)
    else if n < s.cfg.member.pmRam then some { base := pmPlace 0 n, ext := false }
    else none
  else
    let off := n - 0x2000
    if p = 1 ∨ p = 2 then some (s.pmExt p off)
    else if p ∈ s.cfg.member.pmPages then some { base := pmPlace (pmBank p) off, ext := false }
    else if s.noBootMap ∧ p = 0 ∧ off < s.cfg.member.pmRam then some { base := pmPlace 0 off, ext := false }
    else none

/-- Where the core's Data Memory address `a` below the control registers goes with DMOVLAY holding `page` (20_memory.md
R111 to R113); `none` where the member has no memory. -/
def State.dmLoc (s : State) (page : BitVec 4) (a : Addr) : Option Loc :=
  let n := a.toNat
  let p := page.toNat
  if 0x2000 ≤ n then
    if s.cfg.member.memClass = .k4 ∧ n < 0x3000 then none
    else some { base := dmPlace 0 (n - 0x2000), ext := false }
  else if p = 1 ∨ p = 2 then some (s.dmExt p n)
  else if p ∈ s.cfg.member.dmPages then some { base := dmPlace (dmBank p) n, ext := false }
  else none

/-- Where a DMA access to internal Program Memory goes, with the page of the DMA's own overlay field (61_peripherals.md
R612, R619, R627). It is the normal map also in the no-boot map, of which R109 gives the core's side alone (DESIGN CHOICE,
notes/assumptions/48.md). -/
def State.pmDma (s : State) (page : Nat) (a : Addr) : Option Loc :=
  let n := a.toNat
  if n < 0x2000 then
    if n < s.cfg.member.pmRam then some { base := pmPlace 0 n, ext := false } else none
  else if page ∈ s.cfg.member.pmPages then some { base := pmPlace (pmBank page) (n - 0x2000), ext := false }
  else none

/-- Where a DMA access to internal Data Memory goes; the control registers are protected (61_peripherals.md R612, R619,
R627, R631). -/
def State.dmDma (s : State) (page : Nat) (a : Addr) : Option Loc :=
  let n := a.toNat
  if 0x3FE0 ≤ n then none
  else if 0x2000 ≤ n then
    if s.cfg.member.memClass = .k4 ∧ n < 0x3000 then none
    else some { base := dmPlace 0 (n - 0x2000), ext := false }
  else if page ∈ s.cfg.member.dmPages then some { base := dmPlace (dmBank page) n, ext := false }
  else none

/-! ### Program Memory words -/

/-- A 24-bit word at a place; from external memory in Host Memory Mode the low byte reads as ones (20_memory.md R118). -/
def State.pmAt (s : State) (l : Loc) : PmWord :=
  let w := memGet24 s.mem l.base
  if l.ext && s.hostMode then w ||| 0xFF else w

/-- The word an instruction fetch gets at `a` with PMOVLAY holding `page`; `none` where there is no memory. -/
def State.fetchAt (s : State) (page : BitVec 4) (a : Addr) : Option PmWord := (s.pmLoc page a).map s.pmAt

/-- A Program Memory data read; where there is no memory it gives any value (D8, U12). -/
def State.readPm (s : State) (a : Addr) : PmWord :=
  match s.pmLoc s.st.pmovlay a with
  | some l => s.pmAt l
  | none => Config.free 24 s.freeCtr .readAbsent 0

/-- A word written at a place of Program Memory; in Host Memory Mode an external write drives the upper 16 bits only
(20_memory.md R118). -/
def State.pmPut (s : State) (l : Loc) (w : PmWord) : Memory :=
  if l.ext && s.hostMode then memSet16 s.mem l.base (w.extractLsb' 8 16) else memSet24 s.mem l.base w

/-- A Program Memory data write; where there is no memory it is lost (D8). -/
def State.writePm (s : State) (a : Addr) (w : PmWord) : State :=
  match s.pmLoc s.st.pmovlay a with
  | some l => { s with mem := s.pmPut l w }
  | none => s

/-! ### Data Memory words below the control registers -/

/-- A Data Memory read below the control registers; where there is no memory it gives any value (D8, U12). -/
def State.readRam (s : State) (a : Addr) : Word :=
  match s.dmLoc s.st.dmovlay a with
  | some l => memGet16 s.mem l.base
  | none => Config.free 16 s.freeCtr .readAbsent 1

/-- A Data Memory write below the control registers; where there is no memory it is lost (D8). -/
def State.writeRam (s : State) (a : Addr) (w : Word) : State :=
  match s.dmLoc s.st.dmovlay a with
  | some l => { s with mem := memSet16 s.mem l.base w }
  | none => s

/-! ### I/O space (20_memory.md R103) -/

/-- The I/O address the board sees: all of it, or A0 alone in Host Memory Mode (20_memory.md R118). -/
def State.ioAddr (s : State) (a : BitVec 11) : BitVec 11 := if s.hostMode then a &&& 1 else a

/-- An I/O read: what the board presents, any value where it presents nothing (U11, U57). -/
def State.readIo (s : State) (a : BitVec 11) : Word :=
  match s.io.present.lookup (s.ioAddr a) with
  | some w => w
  | none => Config.free 16 s.freeCtr .ioRead 0

/-- An I/O write: delivered to the board (U11). -/
def State.writeIo (s : State) (a : BitVec 11) (w : Word) : State :=
  { s with io := { s.io with out := (s.ioAddr a, w) :: s.io.out } }

end Sys2Proof.Machine
end

