-- ==== Sys2Proof/Machine/Mmr.lean ====
section
/-!
DEFINITION. The memory-mapped control registers, DM 0x3FE0 to 0x3FFF (10_state.md R41 to R56), what reading and writing
each does, and Data Memory accesses as a whole (20_memory.md R124).
-/

namespace Sys2Proof.Machine

/-! ### Fields -/

/-- BTYPE (10_state.md R52). -/
def Bdma.btype (b : Bdma) : Nat := field b.ctl 0 2
/-- BDIR: to Byte Memory (10_state.md R52). -/
def Bdma.bdir (b : Bdma) : Bool := b.ctl.getLsbD 2
/-- BCR (10_state.md R52). -/
def Bdma.bcr (b : Bdma) : Bool := b.ctl.getLsbD 3
/-- BMPAGE (10_state.md R52). -/
def Bdma.bmpage (b : Bdma) : Nat := field b.ctl 8 8
/-- The bytes of one word of a transfer (61_peripherals.md R612). -/
def Bdma.bytes (b : Bdma) : Nat := if b.btype = 0 then 3 else if b.btype = 1 then 2 else 1

/-- BMOVLAY, 0 on members without the field (10_state.md R52; 61_peripherals.md R619). -/
def State.bmovlay (s : State) : Nat := if s.cfg.member.hasIdmaOvl then field s.bdma.ctl 4 4 else 0

/-- BMWAIT: four bits on M and N members, three on the others (10_state.md R50). -/
def State.bmwait (s : State) : Nat := field s.ctl.pfCtl 12 (if s.cfg.member.isMN then 4 else 3)

/-- SPORT1 is configured as a serial port: System Control bit 10 (10_state.md R42). -/
def State.sport1Serial (s : State) : Bool := s.ctl.sysCtl.getLsbD 10

/-- BIASRND: bit 12 of the SPORT0 Autobuffer Control register (10_state.md R48). -/
def State.biasRnd (s : State) : Bool := s.sp0.auto.getLsbD 12

/-- The cycles a word's byte accesses take: one and BMWAIT for each byte (61_peripherals.md R617). -/
def State.bdmaWait (s : State) : Nat := s.bdma.bytes * (s.bmwait + 1)

/-! ### Reading -/

/-- A word whose bits under `mask` are reserved or not given: they read as any value (U3, U10). -/
def State.readOpen (s : State) (k : Nat) (mask v : Word) : Word :=
  openBits mask v (Config.free 16 s.freeCtr .readReserved k)

/-- The IDMA Control register: bit 15 is reserved (10_state.md R55). -/
def Idma.ctlWord (d : Idma) : Word := putBit (d.addr.setWidth 16) 14 d.toDm

/-- The levels of PF7 to PF0: the latch where a pin is an output, the pin where it is an input (61_peripherals.md R652). -/
def State.pfData (s : State) : BitVec 8 := openBits (s.ctl.pfCtl.setWidth 8) s.flags.pfIn s.flags.pfOut

/-- A read of the control register at DM 0x3FE0 + `k` (10_state.md R41 to R56). PDFORCE reads as 0 until it is written 1, and then as
any value (R49, U10; notes/assumptions/15.md). -/
def State.readMmr (s : State) (k : Nat) : Word :=
  match k with
  | 0 => s.readOpen k 0x8000 s.idma.ctlWord
  | 1 => s.readOpen k 0xC000 (s.bdma.biad.setWidth 16)
  | 2 => s.readOpen k 0xC000 (s.bdma.bead.setWidth 16)
  | 3 => s.readOpen k (if s.cfg.member.hasIdmaOvl then 0 else 0x00F0) s.bdma.ctl
  | 4 => s.bdma.bwcount.setWidth 16
  | 5 => s.pfData.setWidth 16
  | 6 => s.readOpen k (if s.cfg.member.isMN then 0 else 0x8000) s.ctl.pfCtl
  | 7 =>
    if s.cfg.member.hasIdmaOvl then
      s.readOpen k (if s.cfg.member.isMN then 0x3F00 else 0x7F00) (putBit s.idma.ovl 15 false)
    else s.readOpen k 0xFFFF 0
  | 15 => if s.sp1.auto.getLsbD 13 then s.readOpen k 0x2000 s.sp1.auto else s.sp1.auto
  | 16 => s.sp1.rfsdiv
  | 17 => s.sp1.sclkdiv
  | 18 => putBit s.sp1.ctl 15 s.flags.fo
  | 19 => s.readOpen k 0xA000 s.sp0.auto
  | 20 => s.sp0.rfsdiv
  | 21 => s.sp0.sclkdiv
  | 22 => s.sp0.ctl
  | 23 => s.mc.txEn.extractLsb' 0 16
  | 24 => s.mc.txEn.extractLsb' 16 16
  | 25 => s.mc.rxEn.extractLsb' 0 16
  | 26 => s.mc.rxEn.extractLsb' 16 16
  | 27 => s.readOpen k 0xFF00 (s.timer.tscale.setWidth 16)
  | 28 => s.timer.tcount
  | 29 => s.timer.tperiod
  | 30 => s.readOpen k (if s.cfg.member.isMN then 0 else 0x8000) s.ctl.waitCtl
  | 31 => s.readOpen k (if s.cfg.member.hasBmsDisable then 0xE3F0 else 0xE3F8) s.ctl.sysCtl
  | _ => s.readOpen k 0xFFFF 0

/-! ### Writing -/

/-- A serial port is enabled (62_serial_ports.md R582). -/
def State.sportOn (s : State) (n : Fin 2) : Bool :=
  if n = 0 then s.ctl.sysCtl.getLsbD 12 else s.ctl.sysCtl.getLsbD 11 && s.sport1Serial

/-- A port's word in transit is lost where the port is not enabled (62_serial_ports.md R582). -/
def Sport.whileOn (p : Sport) (on : Bool) : Sport := { p with transit := if on then p.transit else .idle }

/-- A write of a port's control register. Where it changes a format or framing field of an enabled port, those of `fields`, a word in
transit either way is any value (62_serial_ports.md R584, U61). -/
def Sport.writeCtl (p : Sport) (on : Bool) (fields v free : Word) : Sport :=
  let changed := on && (p.ctl ^^^ v) &&& fields != 0
  { p with
    ctl := v
    tsr := if changed then free else p.tsr
    transit := if changed && p.transit == .shifting then .mixed else p.transit }

/-- A write of System Control. Changing bit 10 changes what levels 1 and 2 stand for: their latches may then hold a
spurious request (60_exceptions.md R524, U37). -/
def State.writeSysCtl (s : State) (v : Word) : State :=
  let changed := s.ctl.sysCtl.getLsbD 10 != v.getLsbD 10
  let spurious : BitVec 10 := Config.free 10 s.freeCtr .intLatch 0 &&& 6
  { s with
    ctl := { s.ctl with sysCtl := v }
    sp0 := s.sp0.whileOn (v.getLsbD 12)
    sp1 := s.sp1.whileOn (v.getLsbD 11 && v.getLsbD 10)
    irq := { s.irq with latch := if changed then s.irq.latch ||| spurious else s.irq.latch } }

/-- A write of BWCOUNT starts a transfer, and holds the core if BCR is 1 (61_peripherals.md R611, R615). -/
def State.writeBwcount (s : State) (v : Word) : State :=
  { s with
    bdma := { s.bdma with
      bwcount := v.setWidth 14
      active := true
      wait := if s.bdma.active then s.bdma.wait else s.bdmaWait
      bcrStart := s.bdma.bcr }
    core := if s.bdma.bcr then .heldBdma else s.core }

/-- A write of BEAD or BIAD while a transfer runs leaves both at any value (61_peripherals.md R611, U41). -/
def State.writeBdmaAddr (s : State) (bead biad : Addr) : State :=
  { s with bdma := { s.bdma with
      bead := if s.bdma.active then Config.free 14 s.freeCtr .bead 0 else bead
      biad := if s.bdma.active then Config.free 14 s.freeCtr .biad 0 else biad } }

/-- An IDMA address latch, by the host or by a core write of DM 0x3FE0 (61_peripherals.md R626). -/
def Idma.latchAddr (d : Idma) (v : Word) : Idma :=
  { d with addr := v.setWidth 14, toDm := v.getLsbD 14, half := .first }

/-- An IDMA overlay latch, by the host or by a core write of DM 0x3FE7 (61_peripherals.md R626). -/
def Idma.latchOvl (d : Idma) (v : Word) : Idma := { d with ovl := putBit v 15 false, half := .first }

/-- The core's own write of an IDMA register noted (10_state.md R55). -/
def Idma.byCore (d : Idma) : Idma := { d with coreWrote := true }

/-- A write of the control register at DM 0x3FE0 + `k` (10_state.md R41 to R56). Reserved locations take no write. -/
def State.writeMmr (s : State) (k : Nat) (v : Word) : State :=
  match k with
  | 0 => { s with idma := (s.idma.latchAddr v).byCore }
  | 1 => s.writeBdmaAddr s.bdma.bead (v.setWidth 14)
  | 2 => s.writeBdmaAddr (v.setWidth 14) s.bdma.biad
  | 3 => { s with bdma := { s.bdma with ctl := v } }
  | 4 => s.writeBwcount v
  | 5 => { s with flags := { s.flags with pfOut := v.setWidth 8 } }
  | 6 => { s with ctl := { s.ctl with pfCtl := v } }
  | 7 => if s.cfg.member.hasIdmaOvl then { s with idma := (s.idma.latchOvl v).byCore } else s
  | 15 =>
    { s with sp1 := { s.sp1 with auto := v }, lat := { s.lat with pdNew := s.lat.pdNew || v.getLsbD 13 } }
  | 16 => { s with sp1 := { s.sp1 with rfsdiv := v } }
  | 17 => { s with sp1 := { s.sp1 with sclkdiv := v } }
  | 18 => { s with sp1 := s.sp1.writeCtl (s.sportOn 1) 0x3FFF v (Config.free 16 s.freeCtr .serialWord 1) }
  | 19 => { s with sp0 := { s.sp0 with auto := v } }
  | 20 => { s with sp0 := { s.sp0 with rfsdiv := v } }
  | 21 => { s with sp0 := { s.sp0 with sclkdiv := v } }
  | 22 => { s with sp0 := s.sp0.writeCtl (s.sportOn 0) 0xBFFF v (Config.free 16 s.freeCtr .serialWord 0) }
  | 23 => { s with mc := { s.mc with txEn := s.mc.txEn.extractLsb' 16 16 ++ v } }
  | 24 => { s with mc := { s.mc with txEn := v ++ s.mc.txEn.extractLsb' 0 16 } }
  | 25 => { s with mc := { s.mc with rxEn := s.mc.rxEn.extractLsb' 16 16 ++ v } }
  | 26 => { s with mc := { s.mc with rxEn := v ++ s.mc.rxEn.extractLsb' 0 16 } }
  | 27 => { s with timer := { s.timer with tscale := v.setWidth 8 } }
  | 28 => { s with timer := { s.timer with tcount := v }, lat := { s.lat with tcountSet := true } }
  | 29 => { s with timer := { s.timer with tperiod := v } }
  | 30 => { s with ctl := { s.ctl with waitCtl := v } }
  | 31 => s.writeSysCtl v
  | _ => s

/-! ### Data Memory -/

/-- A Data Memory read of the core (20_memory.md R124). -/
def State.readDm (s : State) (a : Addr) : Word :=
  if 0x3FE0 ≤ a.toNat then s.readMmr (a.toNat - 0x3FE0) else s.readRam a

/-- A Data Memory write of the core (20_memory.md R124). -/
def State.writeDm (s : State) (a : Addr) (v : Word) : State :=
  if 0x3FE0 ≤ a.toNat then s.writeMmr (a.toNat - 0x3FE0) v else s.writeRam a v

end Sys2Proof.Machine
end

