-- ==== Sys2Proof/Machine/Ops.lean ====
section
/-!
DEFINITION. The shared operations of the program sequencer: the four stacks (10_state.md R60 to R67), the counter
(44_program_flow.md R412), the sequencing step (R400, R421), taking an interrupt and returning from one
(60_exceptions.md R540 to R546), and the context reset (70_reset_and_hazards.md R684).
-/

namespace Sys2Proof.Machine

/-! ### A stack -/

/-- A push: the value is held while the excess is within the depth, and lost with the overflow bit set beyond it (10_state.md
R64); on a stack popped below empty only the excess moves (R66). -/
def Stack.push {α : Type} (k : Stack α) (depth : Nat) (v : α) : Stack α :=
  if k.n < 0 then { k with n := k.n + 1, flip := false }
  else if k.n < depth then { k with entries := v :: k.entries, n := k.n + 1, flip := false }
  else { k with n := k.n + 1, ovf := true, flip := false }

/-- The top value; `free` where the stack is empty or the top was lost to overflow (R64, R66, U6, U7). -/
def Stack.top {α : Type} (k : Stack α) (depth : Nat) (free : α) : α :=
  if k.n ≤ 0 then free
  else if (depth : Int) < k.n then free
  else k.entries.headD free

/-- A pop: the excess falls by one, and the top entry, if it is held, is removed (R64, R66). -/
def Stack.pop {α : Type} (k : Stack α) (depth : Nat) : Stack α :=
  if k.n ≤ 0 then { k with n := k.n - 1, flip := false }
  else if (depth : Int) < k.n then { k with n := k.n - 1, flip := false }
  else { k with entries := k.entries.tail, n := k.n - 1, flip := false }

/-- The stack is empty: pops are at least as many as pushes (R64). -/
def Stack.isEmpty {α : Type} (k : Stack α) : Bool := decide (k.n ≤ 0)

/-- The empty bit of SSTAT (R33, R64). -/
def Stack.emptyBit {α : Type} (k : Stack α) : Bool := k.isEmpty ^^ k.flip

/-- A stack whose two SSTAT bits read as given (U31, U32). -/
def Stack.withBits {α : Type} (k : Stack α) (empty ovf : Bool) : Stack α :=
  { k with flip := k.isEmpty ^^ empty, ovf := ovf }

/-- The stack holds its depth of entries (44_program_flow.md R420). -/
def Stack.isFull {α : Type} (k : Stack α) (depth : Nat) : Bool := decide ((depth : Int) ≤ k.n)

/-- A stack of any contents (U31 to U33). -/
def Stack.any {α : Type} (depth : Nat) (n : Int) (ovf : Bool) (entry : Nat → α) : Stack α :=
  { entries := (List.range (min n.toNat depth)).map entry, n := n, ovf := ovf, flip := false }

/-- The depth of the PC stack (R60). -/
abbrev pcDepth : Nat := 16
/-- The depth of the count stack (R61). -/
abbrev cntDepth : Nat := 4
/-- The depth of the loop stack (R62). -/
abbrev loopDepth : Nat := 4

/-- SSTAT, maintained by the stacks (10_state.md R33). -/
def State.sstat (s : State) : BitVec 8 :=
  let b (k : Nat) (v : Bool) (x : BitVec 8) := putBit x k v
  b 0 s.seq.pcStk.emptyBit (b 1 s.seq.pcStk.ovf (b 2 s.seq.cntStk.emptyBit (b 3 s.seq.cntStk.ovf
    (b 4 s.seq.stsStk.emptyBit (b 5 s.seq.stsStk.ovf (b 6 s.seq.loopStk.emptyBit (b 7 s.seq.loopStk.ovf 0)))))))

/-! ### Updates of the sequencer -/

/-- The address of the next instruction. -/
def State.setPc (s : State) (a : Addr) : State := { s with seq := { s.seq with pc := a } }

/-- The PC stack, marked used by the instruction in progress. -/
def State.setPcStk (s : State) (k : Stack Addr) : State :=
  { s with seq := { s.seq with pcStk := k }, lat := { s.lat with use := { s.lat.use with pcStack := true } } }

/-- The loop stack, marked used by the instruction in progress. -/
def State.setLoopStk (s : State) (k : Stack LoopEntry) : State :=
  { s with seq := { s.seq with loopStk := k }, lat := { s.lat with use := { s.lat.use with loop := true } } }

/-- The count stack, marked used by the instruction in progress. -/
def State.setCntStk (s : State) (k : Stack Addr) : State :=
  { s with seq := { s.seq with cntStk := k }, lat := { s.lat with use := { s.lat.use with count := true } } }

/-- The status stack. -/
def State.setStsStk (s : State) (k : Stack StsEntry) : State := { s with seq := { s.seq with stsStk := k } }

/-- CNTR and its valid flag, marked written by the instruction in progress (R30, R73). -/
def State.setCntr (s : State) (v : Addr) (valid : Bool) : State :=
  { s with
    seq := { s.seq with cntr := v, cntrValid := valid }
    lat := { s.lat with use := { s.lat.use with cntr := true } } }

/-! ### The PC stack (10_state.md R60) -/

/-- What a pop of the PC stack gives where the value is not given. -/
def State.freePc (s : State) : Addr := Config.free 14 s.freeCtr .pcPop 0

/-- `push_pc`. -/
def State.pushPc (s : State) (v : Addr) : State := s.setPcStk (s.seq.pcStk.push pcDepth v)

/-- `top_pc`: the top entry, read and not popped. -/
def State.topPc (s : State) : Addr := s.seq.pcStk.top pcDepth s.freePc

/-- `pop_pc`, the value being `topPc`. -/
def State.popPc (s : State) : State := s.setPcStk (s.seq.pcStk.pop pcDepth)

/-! ### The loop stack (10_state.md R62) -/

/-- A loop stack entry of any contents. -/
def State.freeLoop (s : State) (j : Nat) : LoopEntry :=
  { last := Config.free 14 s.freeCtr .loopStackEntry (3 * j)
    term := Term.ofCode (Config.free 4 s.freeCtr .loopStackEntry (3 * j + 1)).toNat
    first := Config.free 14 s.freeCtr .loopStackEntry (3 * j + 2) }

/-- `top_loop`. -/
def State.topLoop (s : State) : LoopEntry := s.seq.loopStk.top loopDepth (s.freeLoop loopDepth)

/-- `push_loop`. -/
def State.pushLoop (s : State) (e : LoopEntry) : State := s.setLoopStk (s.seq.loopStk.push loopDepth e)

/-- `pop_loop`; the popped information is lost. -/
def State.popLoop (s : State) : State := s.setLoopStk (s.seq.loopStk.pop loopDepth)

/-! ### The counter and its stack (10_state.md R30, R61, R73) -/

/-- `pop_cntr` into CNTR; the counter is valid afterwards. -/
def State.popCntr (s : State) : State :=
  let v := s.seq.cntStk.top cntDepth (Config.free 14 s.freeCtr .cntrPop 0)
  (s.setCntStk (s.seq.cntStk.pop cntDepth)).setCntr v true

/-- A write of CNTR pushes the old count if the counter is valid (R30). -/
def State.writeCntr (s : State) (v : Addr) : State :=
  let s' := if s.seq.cntrValid then s.setCntStk (s.seq.cntStk.push cntDepth s.seq.cntr)
    else { s with lat := { s.lat with use := { s.lat.use with count := true } } }
  s'.setCntr v true

/-- A write of OWRCNTR never pushes (R30). -/
def State.overwriteCntr (s : State) (v : Addr) : State := s.setCntr v true

/-- CE, as it stands at the start of the instruction (44_program_flow.md R412). -/
def State.ce (s : State) : Bool := s.seq.cntr == 1

/-- The state after `test_ce_and_count`, whose answer is `ce` (44_program_flow.md R412); a count popped into CNTR is valid
(10_state.md R73). -/
def State.countCe (s : State) : State :=
  if s.ce then
    if s.seq.cntStk.isEmpty then { s with seq := { s.seq with cntr := 0, cntrValid := false } }
    else
      let v := s.seq.cntStk.top cntDepth (Config.free 14 s.freeCtr .cntrPop 0)
      { s with seq := { s.seq with cntr := v, cntrValid := true, cntStk := s.seq.cntStk.pop cntDepth } }
  else { s with seq := { s.seq with cntr := s.seq.cntr - 1 } }

/-- The counting test of a conditional jump or call, noted for 44_program_flow.md R422's last sentence. -/
def State.countCeJump (s : State) : State :=
  let t := s.countCe
  { t with lat := { t.lat with use := { t.lat.use with ceTest := true } } }

/-! ### The status stack (10_state.md R63) -/

/-- `push_sts`. -/
def State.pushSts (s : State) : State :=
  s.setStsStk (s.seq.stsStk.push s.cfg.stsDepth { astat := s.st.astat, mstat := s.st.mstat, imask := s.st.imask })

/-- The top of the status stack. -/
def State.topSts (s : State) : StsEntry :=
  s.seq.stsStk.top s.cfg.stsDepth
    { astat := Config.free 8 s.freeCtr .stsAstat 0
      mstat := Config.free 7 s.freeCtr .stsMstat 0
      imask := Config.free 10 s.freeCtr .stsImask 0 }

/-- `pop_sts`: the entry goes back into ASTAT, MSTAT and IMASK. -/
def State.popSts (s : State) : State :=
  let e := s.topSts
  let t := s.setStsStk (s.seq.stsStk.pop s.cfg.stsDepth)
  { t with st := { t.st with astat := e.astat, mstat := e.mstat, imask := e.imask } }

/-! ### Sequencing (44_program_flow.md R400, R421) -/

/-- The address after the instruction; the incrementer wraps (10_state.md R29, D5). -/
def State.nextPc (s : State) : Addr := s.seq.pc + 1

/-- The loop comparator: the loop stack is not empty and its top address is the PC (R400, R421). -/
def State.atLoopEnd (s : State) : Bool := !s.seq.loopStk.isEmpty && s.topLoop.last == s.seq.pc

/-- The loop's last decision carried out: fall out and pop, or go back to the top (R421). -/
def State.loopTo (s0 s1 : State) (done : Bool) : State :=
  if done then (s1.popLoop.popPc).setPc s0.nextPc
  else (s1.setPcStk s1.seq.pcStk).setPc s1.topPc

/-- `loop_end_action`; ASTAT and CNTR are those at the start of the instruction (R421). -/
def State.loopEnd (s0 s1 : State) : State :=
  match s0.topLoop.term with
  | .ce => s0.loopTo s1.countCe s0.ce
  | t => s0.loopTo s1 (termTrue t s0.st.astat s0.seq.cntr)

/-- A PC stack of any contents (U31, U32, U33). -/
def State.anyPcStk (s : State) : State :=
  s.setPcStk (Stack.any pcDepth (Config.free 32 s.freeCtr .pcStackN 0).toInt
    ((Config.free 1 s.freeCtr .pcStackOvf 0).getLsbD 0) (fun j => Config.free 14 s.freeCtr .pcStackEntry j))

/-- A loop stack of any contents (U31, U33). -/
def State.anyLoopStk (s : State) : State :=
  s.setLoopStk (Stack.any loopDepth (Config.free 32 s.freeCtr .loopStackN 0).toInt
    ((Config.free 1 s.freeCtr .loopStackOvf 0).getLsbD 0) s.freeLoop)

/-- A count stack of any contents (U33). -/
def State.anyCntStk (s : State) : State :=
  s.setCntStk (Stack.any cntDepth (Config.free 32 s.freeCtr .countStackN 0).toInt
    ((Config.free 1 s.freeCtr .countStackOvf 0).getLsbD 0) (fun j => Config.free 14 s.freeCtr .countStackEntry j))

/-- SSTAT at any value, the contents of the stacks being as they are (U31, U32). -/
def State.anySstat (s : State) : State :=
  let f : BitVec 8 := Config.free 8 s.freeCtr .sstat 0
  { s with seq := { s.seq with
      pcStk := s.seq.pcStk.withBits (f.getLsbD 0) (f.getLsbD 1)
      cntStk := s.seq.cntStk.withBits (f.getLsbD 2) (f.getLsbD 3)
      stsStk := s.seq.stsStk.withBits (f.getLsbD 4) (f.getLsbD 5)
      loopStk := s.seq.loopStk.withBits (f.getLsbD 6) (f.getLsbD 7) } }

/-- The instruction in progress used what the loop mechanism uses in the same cycle (70_reset_and_hazards.md R707;
44_program_flow.md R422). A DO UNTIL that pushes counts as one that did, though R707 does not name it (DESIGN CHOICE,
notes/assumptions/18.md). -/
def State.loopCollides (s0 s1 : State) : Bool :=
  s1.lat.use.pcStack || s1.lat.use.cntr || s1.lat.use.count || s1.lat.use.loop ||
    (s1.lat.use.ceTest && s0.topLoop.term == .ce)

/-- The exit of a CE loop in a collision: the count stack is popped or not, and the counter is valid or not (44_program_flow.md
R412; U30, U33). -/
def State.openExit (s : State) : State :=
  let f : BitVec 2 := Config.free 2 s.freeCtr .ceExit 0
  let t := if f.getLsbD 0 && !s.seq.cntStk.isEmpty then s.setCntStk (s.seq.cntStk.pop cntDepth) else s
  t.setCntr t.seq.cntr (f.getLsbD 1)

/-- The end of a loop whose last instruction collides with the loop mechanism: CNTR, the stacks it names and the loop
decision are any value, with the read of TOPPCSTACK also SSTAT; where the decision ends a CE loop the exit of
44_program_flow.md R412 may happen (70_reset_and_hazards.md R703, R707; U30, U31, U33). -/
def State.loopClash (s0 s1 : State) : State :=
  let u := s1.lat.use
  let done := (Config.free 1 s0.freeCtr .loopDecision 0).getLsbD 0
  let t1 := if u.pcStack then s1.anyPcStk else s1
  let t2 := if u.loop then t1.anyLoopStk else t1
  let t3 := if u.count then t2.anyCntStk else t2
  let t4 := t3.setCntr (Config.free 14 s0.freeCtr .cntr 0) t3.seq.cntrValid
  let t5 := if done && s0.topLoop.term == .ce then t4.openExit else t4
  let t6 := s0.loopTo t5 done
  if u.top then t6.anySstat else t6

/-- The next address of an instruction that is not a taken transfer and not IDLE: `s0` is the state at its start, `s1`
the state with its own effect (R400). -/
def State.advance (s0 s1 : State) : State :=
  if s0.atLoopEnd then
    if s0.loopCollides s1 then s0.loopClash s1 else s0.loopEnd s1
  else s1.setPc s0.nextPc

/-! ### Interrupts (60_exceptions.md) -/

/-- The request of level `k` is latched: the internal ones and IRQE always, IRQ2, IRQ1 and IRQ0 when their ICNTL bit is 1;
levels 1 and 2 are SPORT1's while it is a serial port (R521 to R524). -/
def State.isEdge (s : State) (k : Nat) : Bool :=
  match k with
  | 9 => s.lat.icntlEff.getLsbD 2
  | 8 => false
  | 7 => false
  | 2 => s.sport1Serial || s.lat.icntlEff.getLsbD 1
  | 1 => s.sport1Serial || s.lat.icntlEff.getLsbD 0
  | _ => true

/-- `pending(k)` of R541; a request of the timer counts when its two cycles of synchronisation are over (R545, R561). -/
def State.pending (s : State) (k : Nat) : Bool :=
  if s.isEdge k then s.irq.latch.getLsbD k && (k != 0 || s.irq.timerWait == 0) else !s.irq.pins.getLsbD k

/-- An interrupt source: a maskable level, or powerdown. -/
inductive Source where
  | level (k : Fin 10)
  | powerdown
  deriving DecidableEq, Repr

/-- The levels, highest first. -/
def levels : List (Fin 10) := [9, 8, 7, 6, 5, 4, 3, 2, 1, 0]

/-- The interrupt to take at this boundary, if any: interrupts are enabled, the IMASK hold-off is over, and powerdown or
the greatest unmasked pending level asks (R541, R543). -/
def State.interrupt (s : State) : Option Source :=
  if s.st.intEnable && !s.lat.imaskHold then
    if s.irq.latchPwd then some .powerdown
    else (levels.find? (fun k => s.st.imask.getLsbD k.val && s.pending k.val)).map Source.level
  else none

/-- The vector of a source (R521). -/
def Source.vector : Source → Addr
  | .level k => BitVec.ofNat 14 (4 * (10 - k.val))
  | .powerdown => 0x2C

/-- IMASK on entry (R542, D34): zero without nesting and for powerdown; with nesting the levels up to the one serviced
are cleared. -/
def entryMask (nesting : Bool) (imask : BitVec 10) : Source → BitVec 10
  | .level k => if nesting then imask &&& ~~~(BitVec.ofNat 10 (2 ^ (k.val + 1) - 1)) else 0
  | .powerdown => 0

/-- The request bits on entry: a latched request is cleared (R540). -/
def State.entryIrq (s : State) : Source → Irq
  | .level k => if s.isEdge k.val then { s.irq with latch := putBit s.irq.latch k.val false } else s.irq
  | .powerdown => { s.irq with latchPwd := false, pdSeq := true }

/-- `take_interrupt` (R540): a pending delayed pop is completed, the PC and the status are pushed, IMASK is reloaded, the
request is cleared and the PC goes to the vector; an idle core runs again. The prefetched word is dropped, and that of the vector is
fetched in the same cycle, by `State.enterInterrupt`. The entry comes between the instructions before and
after it, so the restriction of 70_reset_and_hazards.md R705 on a TOPPCSTACK = reg before it is over (DESIGN CHOICE,
notes/assumptions/52.md). -/
def State.takeInterrupt (s : State) (x : Source) : State :=
  let t0 := if s.lat.popDue then s.popPc else s
  let t1 := (t0.pushPc s.seq.pc).pushSts
  { t1 with
    seq := { t1.seq with pc := x.vector, prefetch := none }
    st := { t1.st with imask := entryMask (s.lat.icntlEff.getLsbD 4) s.st.imask x }
    irq := s.entryIrq x
    core := .running
    lat := { t1.lat with popDue := false, push1 := false, push2 := false, use := .none } }

/-- RTI (44_program_flow.md R409; 60_exceptions.md R546): the PC and the status are popped; a powerdown sequence in
progress is aborted (61_peripherals.md R644). -/
def State.returnInterrupt (s : State) : State :=
  let t := (s.popPc.popSts).setPc s.topPc
  { t with
    irq := { t.irq with pdSeq := false }
    lat := { t.lat with use := { t.lat.use with retPop := true } } }

/-! ### Context reset (70_reset_and_hazards.md R684) -/

/-- `context_reset`: the stacks, ASTAT, IMASK, the pending one-cycle actions, the autobuffer enables and requests and
the powerdown sequence are cleared, and execution restarts at PM 0x0000. A PDFORCE written and not yet due and an ICNTL written and
not yet in use, which R684 does not name among the actions dropped, stay and act at the end of the first instruction (DESIGN CHOICE,
notes/assumptions/54.md). -/
def State.contextReset (s : State) : State :=
  { s with
    seq := { s.seq with
      pc := 0, cntrValid := false, pcStk := .empty, cntStk := .empty, loopStk := .empty, stsStk := .empty,
      prefetch := none }
    st := { s.st with astat := 0, imask := 0 }
    irq := { s.irq with pdSeq := false }
    lat := { Lat.none s.lat.icntlEff with pdNew := s.lat.pdNew, pdDue := s.lat.pdDue }
    sp0 := { s.sp0 with auto := s.sp0.auto &&& 0xFFFC, txReq := false, rxReq := false }
    sp1 := { s.sp1 with auto := s.sp1.auto &&& 0xFFFC, txReq := false, rxReq := false }
    core := .running }

end Sys2Proof.Machine
end

