-- ==== Sys2Proof/Machine/Operands.lean ====
section
/-!
DEFINITION. Operands: the active register bank (10_state.md R22), the X and Y operands (30_encoding.md R173, R174), the
constants (R170), the data address generators (20_memory.md R120 to R122), and reading and writing a register by a move
(43_move.md R373, R374).
-/

namespace Sys2Proof.Machine

/-! ### The active bank -/

/-- The register bank MSTAT.SEC_REG selects (10_state.md R22). -/
def State.bank (s : State) : Bank := if s.secReg then s.sec else s.pri

/-- The active bank replaced; the other keeps its values. -/
def State.setBank (s : State) (b : Bank) : State := if s.secReg then { s with sec := b } else { s with pri := b }

/-- ASTAT replaced. -/
def State.setAstat (s : State) (a : BitVec 8) : State := { s with st := { s.st with astat := a } }

/-! ### Computation operands -/

/-- The ALU's X operand (40_alu.md R221). -/
def Bank.aluX (b : Bank) : Xop → Word
  | .x0 => b.ax0
  | .x1 => b.ax1
  | .ar => b.ar
  | .mr0 => b.mr0
  | .mr1 => b.mr1
  | .mr2 => b.mr2.signExtend 16
  | .sr0 => b.sr0
  | .sr1 => b.sr1

/-- The ALU's Y operand; code 11 is zero (40_alu.md R221). -/
def Bank.aluY (b : Bank) : Yop → Word
  | .y0 => b.ay0
  | .y1 => b.ay1
  | .f => b.af
  | .zero => 0

/-- The MAC's X operand (41_mac.md R281). -/
def Bank.macX (b : Bank) : Xop → Word
  | .x0 => b.mx0
  | .x1 => b.mx1
  | .ar => b.ar
  | .mr0 => b.mr0
  | .mr1 => b.mr1
  | .mr2 => b.mr2.signExtend 16
  | .sr0 => b.sr0
  | .sr1 => b.sr1

/-- The MAC's Y operand; code 11 is zero (41_mac.md R281). -/
def Bank.macY (b : Bank) : Yop → Word
  | .y0 => b.my0
  | .y1 => b.my1
  | .f => b.mf
  | .zero => 0

/-- The shifter's input (42_shifter.md R320). -/
def Bank.shX (b : Bank) : ShXop → Word
  | .si => b.si
  | .ar => b.ar
  | .mr0 => b.mr0
  | .mr1 => b.mr1
  | .mr2 => b.mr2.signExtend 16
  | .sr0 => b.sr0
  | .sr1 => b.sr1

/-- A register Y operand as a Y operand. -/
def yopOf : YReg → Yop
  | .y0 => .y0
  | .y1 => .y1
  | .f => .f

/-- The Y operand of DIVS (40_alu.md R258). -/
def Bank.divY (b : Bank) : DivY → Word
  | .ay1 => b.ay1
  | .af => b.af

/-- The 16-bit constant (30_encoding.md R170). -/
def constValue (k : Const) : Word :=
  if k.compl then ~~~(BitVec.ofNat 16 (2 ^ k.n.val)) else BitVec.ofNat 16 (2 ^ k.n.val)

/-! ### The data address generators (20_memory.md R120 to R122) -/

/-- The number of an I or M register: DAG `g`, register `k` within it. -/
def dagNo (g : Bool) (k : BitVec 2) : Fin 8 := Fin.ofNat 8 ((if g then 4 else 0) + k.toNat)

/-- The address with its 14 bits in reverse order (20_memory.md R122). -/
def bitrev14 (a : Addr) : Addr :=
  let b (k : Nat) : Nat := if a.getLsbD k then 2 ^ (13 - k) else 0
  BitVec.ofNat 14 (b 0 + b 1 + b 2 + b 3 + b 4 + b 5 + b 6 + b 7 + b 8 + b 9 + b 10 + b 11 + b 12 + b 13)

/-- The least `n` with `l ≤ 2 ^ (14 - k + n)` counted up from `14 - k`: with `k` = 14 the n of 20_memory.md R121. -/
def bufBitsFrom (l : Nat) : Nat → Nat
  | 0 => 14
  | k + 1 => if l ≤ 2 ^ (13 - k) then 13 - k else bufBitsFrom l k

/-- n with 2^(n-1) < L ≤ 2^n (20_memory.md R121). -/
def bufBits (l : Addr) : Nat := bufBitsFrom l.toNat 14

/-- The base address of the circular buffer of length `l` that contains `i` (20_memory.md R121). -/
def bufBase (i l : Addr) : Nat := i.toNat / 2 ^ bufBits l * 2 ^ bufBits l

/-- The stated conditions of the modulus logic: |M| < L and I inside the buffer (20_memory.md R121). -/
def modulusOk (i m l : Addr) : Bool :=
  decide (m.toInt.natAbs < l.toNat) && decide (i.toNat < bufBase i l + l.toNat)

/-- The modulus logic adds or subtracts L (62_serial_ports.md R597, D39). -/
def dagWraps (i m l : Addr) : Bool :=
  l != 0 && (decide ((bufBase i l + l.toNat : Int) ≤ i.toNat + m.toInt) || decide ((i.toNat : Int) + m.toInt < bufBase i l))

/-- `next_addr`; outside the stated conditions the result is any value (20_memory.md R121, D7, U14). -/
def nextAddr (free i m l : Addr) : Addr :=
  if l = 0 then i + m
  else if modulusOk i m l then
    let s : Int := i.toNat + m.toInt
    if (bufBase i l : Int) + l.toNat ≤ s then BitVec.ofInt 14 (s - l.toNat)
    else if s < bufBase i l then BitVec.ofInt 14 (s + l.toNat)
    else BitVec.ofInt 14 s
  else free

/-- The address an indirect access outputs: I before the update, bit-reversed for DAG1 in that mode (20_memory.md R120). -/
def State.dagAddr (s : State) (i : Fin 8) : Addr :=
  if s.bitRev && decide (i.val < 4) then bitrev14 s.dag.i[i] else s.dag.i[i]

/-- The post-modified value of an I register (20_memory.md R120, R121). -/
def State.dagNext (s : State) (i m : Fin 8) : Addr :=
  nextAddr (Config.free 14 s.freeCtr .nextAddr i.val) s.dag.i[i] s.dag.m[m] s.dag.l[i]

/-- An I register replaced. -/
def State.setI (s : State) (i : Fin 8) (v : Addr) : State := { s with dag := { s.dag with i := s.dag.i.set i v } }

/-- An M register replaced. -/
def State.setM (s : State) (i : Fin 8) (v : Addr) : State := { s with dag := { s.dag with m := s.dag.m.set i v } }

/-- An L register replaced. -/
def State.setL (s : State) (i : Fin 8) (v : Addr) : State := { s with dag := { s.dag with l := s.dag.l.set i v } }

/-- The post-modify of an indirect access, and MODIFY (20_memory.md R120; 45_misc.md R460). -/
def State.dagStep (s : State) (i m : Fin 8) : State := s.setI i (s.dagNext i m)

/-! ### Data registers -/

/-- The 16-bit value a data register puts on the bus (43_move.md R373). -/
def Bank.dreg (b : Bank) : Dreg → Word
  | .ax0 => b.ax0
  | .ax1 => b.ax1
  | .mx0 => b.mx0
  | .mx1 => b.mx1
  | .ay0 => b.ay0
  | .ay1 => b.ay1
  | .my0 => b.my0
  | .my1 => b.my1
  | .si => b.si
  | .se => b.se.signExtend 16
  | .ar => b.ar
  | .mr0 => b.mr0
  | .mr1 => b.mr1
  | .mr2 => b.mr2.signExtend 16
  | .sr0 => b.sr0
  | .sr1 => b.sr1

/-- A data register written with a 16-bit value: MR1 also extends its sign into MR2 (43_move.md R374). -/
def Bank.setDreg (b : Bank) (d : Dreg) (v : Word) : Bank :=
  match d with
  | .ax0 => { b with ax0 := v }
  | .ax1 => { b with ax1 := v }
  | .mx0 => { b with mx0 := v }
  | .mx1 => { b with mx1 := v }
  | .ay0 => { b with ay0 := v }
  | .ay1 => { b with ay1 := v }
  | .my0 => { b with my0 := v }
  | .my1 => { b with my1 := v }
  | .si => { b with si := v }
  | .se => { b with se := v.setWidth 8 }
  | .ar => { b with ar := v }
  | .mr0 => { b with mr0 := v }
  | .mr1 => { b with mr1 := v, mr2 := if v.getLsbD 15 then 0xFF else 0 }
  | .mr2 => { b with mr2 := v.setWidth 8 }
  | .sr0 => { b with sr0 := v }
  | .sr1 => { b with sr1 := v }

/-- A data register of the active bank written (43_move.md R374). -/
def State.loadDreg (s : State) (d : Dreg) (v : Word) : State := s.setBank (s.bank.setDreg d v)

/-! ### Serial port registers -/

/-- A serial port. -/
def State.sport (s : State) (n : Fin 2) : Sport := if n = 0 then s.sp0 else s.sp1

/-- A serial port replaced. -/
def State.setSport (s : State) (n : Fin 2) (p : Sport) : State :=
  if n = 0 then { s with sp0 := p } else { s with sp1 := p }

/-- Companding is selected: DTYPE 10 or 11 (10_state.md R45). -/
def Sport.companding (p : Sport) : Bool := p.ctl.getLsbD 5

/-- A-law is selected rather than mu-law (10_state.md R45). -/
def Sport.aLaw (p : Sport) : Bool := p.ctl.getLsbD 4

/-- The word length, SLEN + 1 (62_serial_ports.md R584). -/
def Sport.len (p : Sport) : Nat := field p.ctl 0 4 + 1

/-- A write of TXn by an instruction (62_serial_ports.md R587, R593); a compression still due of the value before it is dropped
(DESIGN CHOICE, notes/assumptions/53.md). -/
def Sport.writeTx (p : Sport) (v : Word) : Sport :=
  { p with tx := v, txFull := true, compNew := p.companding, compDue := false }

/-- A write of RXn by an instruction (62_serial_ports.md R593); an expansion still due of the value before it is dropped
(DESIGN CHOICE, notes/assumptions/53.md). -/
def Sport.writeRx (p : Sport) (v : Word) : Sport := { p with rx := v, expNew := p.companding, expDue := false }

/-! ### The companding functions (62_serial_ports.md R592, from general knowledge) -/

/-- The position of the highest set bit among the low `k` bits, 0 if none: floor(log2). -/
def log2From (m : Nat) : Nat → Nat
  | 0 => 0
  | k + 1 => if 2 ^ k ≤ m then k else log2From m k

/-- `compress_mu`. -/
def compressMu (x : Word) : BitVec 8 :=
  let s : Nat := if x.getLsbD 15 then 1 else 0
  let m := min x.toInt.natAbs 8158 + 33
  let e := log2From m 16 - 5
  let q := m / 2 ^ (e + 1) % 16
  ~~~(BitVec.ofNat 8 (s * 128 + e * 16 + q))

/-- `expand_mu`. -/
def expandMu (c : BitVec 8) : Word :=
  let d := ~~~c
  let m : Int := ((field d 0 4 * 2 + 33) * 2 ^ field d 4 3 : Nat) - 33
  BitVec.ofInt 16 (if d.getLsbD 7 then -m else m)

/-- `compress_a`. -/
def compressA (x : Word) : BitVec 8 :=
  let s : Nat := if x.getLsbD 15 then 0 else 1
  let m := min x.toInt.natAbs 4095
  let e := if m < 32 then 0 else log2From m 16 - 4
  let q := if m < 32 then m / 2 else m / 2 ^ e % 16
  BitVec.ofNat 8 (s * 128 + e * 16 + q) ^^^ 0x55

/-- `expand_a`. -/
def expandA (c : BitVec 8) : Word :=
  let d := c ^^^ 0x55
  let e := field d 4 3
  let m : Int := ((if e = 0 then field d 0 4 * 2 + 1 else (field d 0 4 * 2 + 33) * 2 ^ (e - 1)) : Nat)
  BitVec.ofInt 16 (if d.getLsbD 7 then m else -m)

/-- TXn compressed: the code, sign-extended to the word length; the bits above are any value (62_serial_ports.md R591,
R593, U62). The law is that of bit 4 of the control word as it then is, whatever DTYPE selects by then (DESIGN CHOICE,
notes/assumptions/45.md). -/
def Sport.compressed (p : Sport) (free : Word) : Word :=
  let code := if p.aLaw then compressA p.tx else compressMu p.tx
  openBits (BitVec.ofNat 16 (65536 - 2 ^ max p.len 8)) (code.signExtend 16) free

/-- RXn expanded from its low eight bits (62_serial_ports.md R593), by the law of bit 4 of the control word as it then is (DESIGN
CHOICE, notes/assumptions/45.md). -/
def Sport.expanded (p : Sport) : Word :=
  if p.aLaw then expandA (p.rx.setWidth 8) else expandMu (p.rx.setWidth 8)

/-- A free value for the bits of TXn above the word length. -/
def State.freeTx (s : State) (n : Fin 2) : Word := Config.free 16 s.freeCtr .txUpper n.val

/-- TXn as an instruction reads it: right after a write with companding it is either value (62_serial_ports.md R593, U63). -/
def State.readTx (s : State) (n : Fin 2) : Word :=
  let p := s.sport n
  if p.compDue then
    if (Config.free 1 s.freeCtr .companded n.val).getLsbD 0 then p.compressed (s.freeTx n) else p.tx
  else p.tx

/-- RXn as an instruction reads it: right after a write with companding it is either value (62_serial_ports.md R593, U63). -/
def State.readRx (s : State) (n : Fin 2) : Word :=
  let p := s.sport n
  if p.expDue then
    if (Config.free 1 s.freeCtr .companded (2 + n.val)).getLsbD 0 then p.expanded else p.rx
  else p.rx

/-! ### Every register (43_move.md R373, R374) -/

/-- `bus(r)`: the 16-bit value a register puts on the bus. IFC and OWRCNTR cannot be read and no well-formed instruction
reads them. -/
def State.bus (s : State) (r : Reg) : Word :=
  match r with
  | .d d => s.bank.dreg d
  | .i n => s.dag.i[n].setWidth 16
  | .m n => s.dag.m[n].signExtend 16
  | .l n => s.dag.l[n].setWidth 16
  | .pmovlay => s.st.pmovlay.setWidth 16
  | .dmovlay => s.st.dmovlay.setWidth 16
  | .astat => s.st.astat.setWidth 16
  | .mstat => s.st.mstat.setWidth 16
  | .sstat => s.sstat.setWidth 16
  | .imask => s.st.imask.setWidth 16
  | .icntl => (openBits 0x08 s.st.icntl (Config.free 5 s.freeCtr .icntlBit 0)).setWidth 16
  | .cntr => s.seq.cntr.setWidth 16
  | .sb => s.bank.sb.signExtend 16
  | .px => s.px.setWidth 16
  | .rx0 => s.readRx 0
  | .tx0 => s.readTx 0
  | .rx1 => s.readRx 1
  | .tx1 => s.readTx 1
  | .ifc => 0
  | .owrcntr => s.seq.cntr.setWidth 16

/-- `load(r, v)`: what writing a 16-bit value to a register does. SSTAT is read-only and no well-formed instruction
writes it. -/
def State.load (s : State) (r : Reg) (v : Word) : State :=
  match r with
  | .d d => s.loadDreg d v
  | .i n => s.setI n (v.setWidth 14)
  | .m n => s.setM n (v.setWidth 14)
  | .l n => s.setL n (v.setWidth 14)
  | .pmovlay => { s with st := { s.st with pmovlay := v.setWidth 4 } }
  | .dmovlay => { s with st := { s.st with dmovlay := v.setWidth 4 } }
  | .astat => s.setAstat (v.setWidth 8)
  | .mstat => { s with st := { s.st with mstat := v.setWidth 7 } }
  | .sstat => s
  | .imask => { s with st := { s.st with imask := v.setWidth 10 }, lat := { s.lat with imaskNew := true } }
  | .icntl => { s with st := { s.st with icntl := v.setWidth 5 } }
  | .cntr => s.writeCntr (v.setWidth 14)
  | .sb => s.setBank { s.bank with sb := v.setWidth 5 }
  | .px => { s with px := v.setWidth 8 }
  | .rx0 => s.setSport 0 (s.sp0.writeRx v)
  | .tx0 => s.setSport 0 (s.sp0.writeTx v)
  | .rx1 => s.setSport 1 (s.sp1.writeRx v)
  | .tx1 => s.setSport 1 (s.sp1.writeTx v)
  | .ifc => { s with lat := { s.lat with ifcNew := v } }
  | .owrcntr => s.overwriteCntr (v.setWidth 14)

end Sys2Proof.Machine
end

