-- ==== Sys2Proof/Machine/Alu.lean ====
section
/-!
DEFINITION. The ALU instructions (40_alu.md): the operations every ALU computation shares, and the meaning of each row of
Type 9's ALU forms, of NONE, and of the division primitives.
-/

namespace Sys2Proof.Machine

/-! ### Ends of instructions -/

/-- An instruction that is no taken transfer and not IDLE: its own effect, then the sequencing step (44_program_flow.md
R400). -/
def State.done (s t : State) : Result := .next (s.advance t)

/-- A conditional instruction: a false condition suppresses its whole effect, and NOT CE does not count here (40_alu.md
R225; 44_program_flow.md R412 (c)). -/
def State.doneIf (s : State) (c : Cond) (t : State) : Result := s.done (if s.cond c then t else s)

/-! ### The shared ALU operation -/

/-- The function of an ALU code on two operands, with the carry of the start of the instruction (40_alu.md R220). -/
def State.aluOut (s : State) (fn : AluFn) (x y : Word) : AluOut := aluEval fn x y (astatAC s.st.astat)

/-- AR or AF written with an ALU output: AR may saturate, AF never does (40_alu.md R225, R264). -/
def Bank.setAlu (b : Bank) (z : Dest) (sat : Bool) (o : AluOut) : Bank :=
  match z with
  | .result => { b with ar := arValue sat o }
  | .feedback => { b with af := o.r }

/-- ASTAT after an ALU function: AZ, AN, AV, AC, and for ABS also AS, the sign of the X operand; `sat` says that AR_SAT bears on
it (40_alu.md R225, R248, R264). -/
def State.aluAstat (s : State) (sat : Bool) (fn : AluFn) (x y : Word) : BitVec 8 :=
  let a := aluFlags s.cfg.aluSatFlags sat s.avLatch s.st.astat (s.aluOut fn x y)
  match fn with
  | .abs => putBit a 4 (x.getLsbD 15)
  | _ => a

/-- An ALU computation on two values, committed; the flags are the same whichever of AR and AF it writes (40_alu.md R225,
R264). -/
def State.alu (s : State) (z : Dest) (fn : AluFn) (x y : Word) : State :=
  (s.setBank (s.bank.setAlu z s.arSat (s.aluOut fn x y))).setAstat (s.aluAstat s.arSat fn x y)

/-- An ALU computation on the registers two operand codes name (40_alu.md R221). -/
def State.aluReg (s : State) (z : Dest) (fn : AluFn) (y : Yop) (x : Xop) : State :=
  s.alu z fn (s.bank.aluX x) (s.bank.aluY y)

/-- An ALU computation whose Y operand is a constant (40_alu.md R226). -/
def State.aluConst (s : State) (z : Dest) (fn : AluFn) (k : Const) (x : Xop) : State :=
  s.alu z fn (s.bank.aluX x) (constValue k)

/-- ASTAT with AZ, AN, AV and AC any value (40_alu.md R241, D20). -/
def State.openAstat (s : State) : BitVec 8 := openBits 0x0F s.st.astat (Config.free 8 s.freeCtr .flagBits 0)

/-- PASS of a constant: the value is written as it is, and AZ, AN, AV, AC are any value (40_alu.md R241, D20). -/
def State.aluPassOpen (s : State) (z : Dest) (r : Word) : State :=
  (s.setBank (s.bank.setAlu z false (logic r))).setAstat s.openAstat

/-! ### Type 9, register form -/

/-- PASS 0 (40_alu.md R240). -/
def execAluPassZero (z : Dest) (x : Xop) (c : Cond) (s : State) : Result :=
  s.doneIf c (s.aluReg z .passY .zero x)

/-- PASS of the Y operand (40_alu.md R240). -/
def execAluPassY (z : Dest) (y : YReg) (x : Xop) (c : Cond) (s : State) : Result :=
  s.doneIf c (s.aluReg z .passY (yopOf y) x)

/-- PASS 1 (40_alu.md R240). -/
def execAluPassOne (z : Dest) (x : Xop) (c : Cond) (s : State) : Result :=
  s.doneIf c (s.aluReg z .incY .zero x)

/-- `yop + 1` (40_alu.md R252). -/
def execAluIncY (z : Dest) (y : YReg) (x : Xop) (c : Cond) (s : State) : Result :=
  s.doneIf c (s.aluReg z .incY (yopOf y) x)

/-- `xop + C` (40_alu.md R224). -/
def execAluXAddC (z : Dest) (x : Xop) (c : Cond) (s : State) : Result :=
  s.doneIf c (s.aluReg z .addC .zero x)

/-- `xop + yop + C` (40_alu.md R224). -/
def execAluAddC (z : Dest) (y : YReg) (x : Xop) (c : Cond) (s : State) : Result :=
  s.doneIf c (s.aluReg z .addC (yopOf y) x)

/-- PASS of the X operand (40_alu.md R240). -/
def execAluPassX (z : Dest) (x : Xop) (c : Cond) (s : State) : Result :=
  s.doneIf c (s.aluReg z .add .zero x)

/-- `xop + yop` (40_alu.md R223). -/
def execAluAdd (z : Dest) (y : YReg) (x : Xop) (c : Cond) (s : State) : Result :=
  s.doneIf c (s.aluReg z .add (yopOf y) x)

/-- NOT 0 (40_alu.md R246). -/
def execAluNotZero (z : Dest) (x : Xop) (c : Cond) (s : State) : Result :=
  s.doneIf c (s.aluReg z .notY .zero x)

/-- NOT of the Y operand (40_alu.md R246). -/
def execAluNotY (z : Dest) (y : YReg) (x : Xop) (c : Cond) (s : State) : Result :=
  s.doneIf c (s.aluReg z .notY (yopOf y) x)

/-- `-yop` (40_alu.md R244). -/
def execAluNegY (z : Dest) (y : Yop) (x : Xop) (c : Cond) (s : State) : Result :=
  s.doneIf c (s.aluReg z .negY y x)

/-- `xop + C - 1` (40_alu.md R229). -/
def execAluXSubBorrow (z : Dest) (x : Xop) (c : Cond) (s : State) : Result :=
  s.doneIf c (s.aluReg z .subBorrow .zero x)

/-- `xop - yop + C - 1` (40_alu.md R229). -/
def execAluSubBorrow (z : Dest) (y : YReg) (x : Xop) (c : Cond) (s : State) : Result :=
  s.doneIf c (s.aluReg z .subBorrow (yopOf y) x)

/-- `xop - yop` (40_alu.md R228). -/
def execAluSub (z : Dest) (y : Yop) (x : Xop) (c : Cond) (s : State) : Result :=
  s.doneIf c (s.aluReg z .sub y x)

/-- PASS -1 (40_alu.md R240). -/
def execAluPassNegOne (z : Dest) (x : Xop) (c : Cond) (s : State) : Result :=
  s.doneIf c (s.aluReg z .decY .zero x)

/-- `yop - 1` (40_alu.md R254). -/
def execAluDecY (z : Dest) (y : YReg) (x : Xop) (c : Cond) (s : State) : Result :=
  s.doneIf c (s.aluReg z .decY (yopOf y) x)

/-- `-xop` (40_alu.md R244). -/
def execAluNegX (z : Dest) (x : Xop) (c : Cond) (s : State) : Result :=
  s.doneIf c (s.aluReg z .rsub .zero x)

/-- `yop - xop` (40_alu.md R232). -/
def execAluRsub (z : Dest) (y : YReg) (x : Xop) (c : Cond) (s : State) : Result :=
  s.doneIf c (s.aluReg z .rsub (yopOf y) x)

/-- `-xop + C - 1` (40_alu.md R233). -/
def execAluNegXBorrow (z : Dest) (x : Xop) (c : Cond) (s : State) : Result :=
  s.doneIf c (s.aluReg z .rsubBorrow .zero x)

/-- `yop - xop + C - 1` (40_alu.md R233). -/
def execAluRsubBorrow (z : Dest) (y : YReg) (x : Xop) (c : Cond) (s : State) : Result :=
  s.doneIf c (s.aluReg z .rsubBorrow (yopOf y) x)

/-- NOT of the X operand (40_alu.md R246). -/
def execAluNotX (z : Dest) (y : Yop) (x : Xop) (c : Cond) (s : State) : Result :=
  s.doneIf c (s.aluReg z .notX y x)

/-- AND (40_alu.md R236). -/
def execAluAnd (z : Dest) (y : Yop) (x : Xop) (c : Cond) (s : State) : Result :=
  s.doneIf c (s.aluReg z .and y x)

/-- OR (40_alu.md R237). -/
def execAluOr (z : Dest) (y : Yop) (x : Xop) (c : Cond) (s : State) : Result :=
  s.doneIf c (s.aluReg z .or y x)

/-- XOR (40_alu.md R238). -/
def execAluXor (z : Dest) (y : Yop) (x : Xop) (c : Cond) (s : State) : Result :=
  s.doneIf c (s.aluReg z .xor y x)

/-- ABS (40_alu.md R248). -/
def execAluAbs (z : Dest) (y : Yop) (x : Xop) (c : Cond) (s : State) : Result :=
  s.doneIf c (s.aluReg z .abs y x)

/-! ### Type 9, constant form (40_alu.md R226, R239, R241) -/

/-- PASS constant; the X field is not used (40_alu.md R241). -/
def execAluPassConst (z : Dest) (k : Const) (_x : Xop) (c : Cond) (s : State) : Result :=
  s.doneIf c (s.aluPassOpen z (constValue k))

/-- PASS constant, the constant plus 1; the X field is not used (40_alu.md R241). -/
def execAluPassConstInc (z : Dest) (k : Const) (_x : Xop) (c : Cond) (s : State) : Result :=
  s.doneIf c (s.aluPassOpen z (constValue k + 1))

/-- PASS constant, the constant minus 1; the X field is not used (40_alu.md R241). -/
def execAluPassConstDec (z : Dest) (k : Const) (_x : Xop) (c : Cond) (s : State) : Result :=
  s.doneIf c (s.aluPassOpen z (constValue k - 1))

/-- `xop + constant + C` (40_alu.md R224). -/
def execAluAddConstC (z : Dest) (k : Const) (x : Xop) (c : Cond) (s : State) : Result :=
  s.doneIf c (s.aluConst z .addC k x)

/-- `xop + constant` (40_alu.md R223). -/
def execAluAddConst (z : Dest) (k : Const) (x : Xop) (c : Cond) (s : State) : Result :=
  s.doneIf c (s.aluConst z .add k x)

/-- `xop - constant + C - 1` (40_alu.md R229). -/
def execAluSubConstBorrow (z : Dest) (k : Const) (x : Xop) (c : Cond) (s : State) : Result :=
  s.doneIf c (s.aluConst z .subBorrow k x)

/-- `xop - constant` (40_alu.md R228). -/
def execAluSubConst (z : Dest) (k : Const) (x : Xop) (c : Cond) (s : State) : Result :=
  s.doneIf c (s.aluConst z .sub k x)

/-- `-xop + constant` (40_alu.md R232). -/
def execAluRsubConst (z : Dest) (k : Const) (x : Xop) (c : Cond) (s : State) : Result :=
  s.doneIf c (s.aluConst z .rsub k x)

/-- `-xop + constant + C - 1` (40_alu.md R233). -/
def execAluRsubConstBorrow (z : Dest) (k : Const) (x : Xop) (c : Cond) (s : State) : Result :=
  s.doneIf c (s.aluConst z .rsubBorrow k x)

/-- AND with a constant, TSTBIT and CLRBIT (40_alu.md R236, R239). -/
def execAluAndConst (z : Dest) (k : Const) (x : Xop) (c : Cond) (s : State) : Result :=
  s.doneIf c (s.aluConst z .and k x)

/-- OR with a constant, SETBIT (40_alu.md R237, R239). -/
def execAluOrConst (z : Dest) (k : Const) (x : Xop) (c : Cond) (s : State) : Result :=
  s.doneIf c (s.aluConst z .or k x)

/-- XOR with a constant, TGLBIT (40_alu.md R238, R239). -/
def execAluXorConst (z : Dest) (k : Const) (x : Xop) (c : Cond) (s : State) : Result :=
  s.doneIf c (s.aluConst z .xor k x)

/-- NOT of a constant (40_alu.md R246). -/
def execAluNotConst (z : Dest) (k : Const) (x : Xop) (c : Cond) (s : State) : Result :=
  s.doneIf c (s.aluConst z .notY k x)

/-- negation of a constant (40_alu.md R244). -/
def execAluNegConst (z : Dest) (k : Const) (x : Xop) (c : Cond) (s : State) : Result :=
  s.doneIf c (s.aluConst z .negY k x)

/-! ### NONE and division -/

/-- NONE: the flags of the function, on which AR_SAT has no effect, the value discarded (40_alu.md R262). -/
def execAluNone (fn : AluFn) (y : Yop) (x : Xop) (s : State) : Result :=
  s.done (s.setAstat (s.aluAstat false fn (s.bank.aluX x) (s.bank.aluY y)))

/-- The AF and AY0 pair shifted left by one: AY0's top bit enters below `r`, `q` enters AY0 (40_alu.md R258, R259). -/
def Bank.divShift (b : Bank) (r : Word) (q : Bool) : Bank :=
  { b with af := r <<< 1 ||| (b.ay0 >>> 15), ay0 := b.ay0 <<< 1 ||| BitVec.ofNat 16 q.toNat }

/-- DIVS (40_alu.md R258). -/
def execDivs (y : DivY) (x : Xop) (s : State) : Result :=
  let yv := s.bank.divY y
  let q := (s.bank.aluX x).getLsbD 15 ^^ yv.getLsbD 15
  s.done ((s.setBank (s.bank.divShift yv q)).setAstat (putBit s.st.astat 5 q))

/-- An address lies in the body of a loop (70_reset_and_hazards.md R712). -/
def LoopEntry.covers (e : LoopEntry) (pc : Addr) : Bool := decide ((pc - e.first).toNat ≤ (e.last - e.first).toNat)

/-- The instruction executes inside a hardware loop (70_reset_and_hazards.md R712). -/
def State.inLoop (s : State) : Bool := !s.seq.loopStk.isEmpty && s.seq.loopStk.entries.any (fun e => e.covers s.seq.pc)

/-- The remainder DIVQ computes: AF plus the divisor if AQ is set, else AF minus the divisor (40_alu.md R259). -/
def State.divRem (s : State) (x : Word) : Word := if astatAQ s.st.astat then s.bank.af + x else s.bank.af - x

/-- DIVQ outside a hardware loop (40_alu.md R259). -/
def State.divqStep (s : State) (x : Word) : State :=
  let r := s.divRem x
  let q := x.getLsbD 15 ^^ r.getLsbD 15
  (s.setBank (s.bank.divShift r (!q))).setAstat (putBit s.st.astat 5 q)

/-- DIVQ inside a hardware loop: AF, AY0 and AQ are any value (70_reset_and_hazards.md R712). -/
def State.divqOpen (s : State) : State :=
  let f (j : Nat) : Word := Config.free 16 s.freeCtr .divResult j
  (s.setBank { s.bank with af := f 0, ay0 := f 1 }).setAstat (putBit s.st.astat 5 ((f 2).getLsbD 0))

/-- DIVQ (40_alu.md R259; 70_reset_and_hazards.md R712). -/
def execDivq (x : Xop) (s : State) : Result := s.done (if s.inLoop then s.divqOpen else s.divqStep (s.bank.aluX x))

end Sys2Proof.Machine
end

