-- ==== Sys2Proof/Machine/Mac.lean ====
section
/-!
DEFINITION. The MAC instructions (41_mac.md): the product, the 40-bit accumulation, rounding and MV, and the meaning of
each row of Type 9's MAC forms and of SAT MR.
-/

namespace Sys2Proof.Machine

/-! ### The shared MAC operation -/

/-- The X operand of a function is signed (41_mac.md R282). -/
def macSignedX : MacFn → Bool
  | .mulUS | .mulUU | .addUS | .addUU | .subUS | .subUU => false
  | _ => true

/-- The Y operand of a function is signed (41_mac.md R282). -/
def macSignedY : MacFn → Bool
  | .mulSU | .mulUU | .addSU | .addUU | .subSU | .subUU => false
  | _ => true

/-- The function rounds (41_mac.md R284). -/
def macRounds : MacFn → Bool
  | .mulRnd | .addRnd | .subRnd => true
  | _ => false

/-- The accumulate mode: the multiple of MR and the sign of the product in T (41_mac.md R284). -/
def macMode : MacFn → Int × Int
  | .mulRnd | .mulSS | .mulSU | .mulUS | .mulUU => (0, 1)
  | .addRnd | .addSS | .addSU | .addUS | .addUU => (1, 1)
  | .subRnd | .subSS | .subSU | .subUS | .subUU => (1, -1)

/-- A 16-bit operand as a number. -/
def operand (signed : Bool) (v : Word) : Int := if signed then v.toInt else v.toNat

/-- The product: exact, or with MAC_UU_SIGN_EXTENDS_P taken as a signed 32-bit number (41_mac.md R282, D25). -/
def macProduct (signExt : Bool) (fn : MacFn) (x y : Word) : Int :=
  let p := operand (macSignedX fn) x * operand (macSignedY fn) y
  if signExt then (BitVec.ofInt 32 p).toInt else p

/-- The addend: doubled in fractional mode (41_mac.md R283). -/
def macAddend (integer : Bool) (p : Int) : Int := if integer then p else 2 * p

/-- MR as one 40-bit word (41_mac.md R280). -/
def Bank.mr (b : Bank) : BitVec 40 := b.mr2 ++ b.mr1 ++ b.mr0

/-- Rounding at bit 15; unbiased rounding takes a midpoint to the even value (41_mac.md R284, R290). -/
def macRound (biased : Bool) (t : Int) : Int :=
  let u := t + 0x8000
  if !biased && decide (u % 65536 = 0) && decide (u / 65536 % 2 = 1) then u - 65536 else u

/-- The 40-bit result R40 of a MAC function (41_mac.md R284). -/
def State.macOut (s : State) (fn : MacFn) (x y : Word) : BitVec 40 :=
  let a := macAddend s.mMode (macProduct s.cfg.macUUSignExt fn x y)
  let t := (macMode fn).1 * s.bank.mr.toInt + (macMode fn).2 * a
  BitVec.ofInt 40 (if macRounds fn then macRound s.biasRnd t else t)

/-- MR, or MF with bits 31:16, written with a 40-bit result (41_mac.md R284). -/
def Bank.setMac (b : Bank) (z : Dest) (r : BitVec 40) : Bank :=
  match z with
  | .result => { b with mr0 := r.extractLsb' 0 16, mr1 := r.extractLsb' 16 16, mr2 := r.extractLsb' 32 8 }
  | .feedback => { b with mf := r.extractLsb' 16 16 }

/-- A MAC computation on two values, committed; MV alone of ASTAT changes (41_mac.md R284, R289). -/
def State.mac (s : State) (z : Dest) (fn : MacFn) (x y : Word) : State :=
  let r := s.macOut fn x y
  (s.setBank (s.bank.setMac z r)).setAstat (putBit s.st.astat 6 (mvOf r))

/-- A MAC computation on the registers two operand codes name (41_mac.md R281). -/
def State.macReg (s : State) (z : Dest) (fn : MacFn) (y : Yop) (x : Xop) : State :=
  s.mac z fn (s.bank.macX x) (s.bank.macY y)

/-- A squaring: the Y operand is the X operand (41_mac.md R288). -/
def State.macSquare (s : State) (z : Dest) (fn : MacFn) (x : Xop) : State := s.mac z fn (s.bank.macX x) (s.bank.macX x)

/-! ### Type 9 -/

/-- Squaring, rounded (41_mac.md R288). -/
def execMacSqRnd (z : Dest) (x : Xop) (c : Cond) (s : State) : Result :=
  s.doneIf c (s.macSquare z .mulRnd x)

/-- Multiply, rounded (41_mac.md R285). -/
def execMacMulRnd (z : Dest) (y : Yop) (x : Xop) (c : Cond) (s : State) : Result :=
  s.doneIf c (s.macReg z .mulRnd y x)

/-- Squaring with cumulative add, rounded (41_mac.md R288). -/
def execMacAddSqRnd (z : Dest) (x : Xop) (c : Cond) (s : State) : Result :=
  s.doneIf c (s.macSquare z .addRnd x)

/-- Transfer with rounding (41_mac.md R292). -/
def execMacRnd (z : Dest) (x : Xop) (c : Cond) (s : State) : Result :=
  s.doneIf c (s.macReg z .addRnd .zero x)

/-- Multiply with cumulative add, rounded (41_mac.md R286). -/
def execMacAddRnd (z : Dest) (y : YReg) (x : Xop) (c : Cond) (s : State) : Result :=
  s.doneIf c (s.macReg z .addRnd (yopOf y) x)

/-- Squaring with cumulative subtract, rounded (41_mac.md R288). -/
def execMacSubSqRnd (z : Dest) (x : Xop) (c : Cond) (s : State) : Result :=
  s.doneIf c (s.macSquare z .subRnd x)

/-- Multiply with cumulative subtract, rounded (41_mac.md R287). -/
def execMacSubRnd (z : Dest) (y : Yop) (x : Xop) (c : Cond) (s : State) : Result :=
  s.doneIf c (s.macReg z .subRnd y x)

/-- Squaring (SS) (41_mac.md R288). -/
def execMacSqSS (z : Dest) (x : Xop) (c : Cond) (s : State) : Result :=
  s.doneIf c (s.macSquare z .mulSS x)

/-- Clear (41_mac.md R291). -/
def execMacZero (z : Dest) (x : Xop) (c : Cond) (s : State) : Result :=
  s.doneIf c (s.macReg z .mulSS .zero x)

/-- Multiply (SS) (41_mac.md R285). -/
def execMacMulSS (z : Dest) (y : YReg) (x : Xop) (c : Cond) (s : State) : Result :=
  s.doneIf c (s.macReg z .mulSS (yopOf y) x)

/-- Multiply (SU) (41_mac.md R285). -/
def execMacMulSU (z : Dest) (y : Yop) (x : Xop) (c : Cond) (s : State) : Result :=
  s.doneIf c (s.macReg z .mulSU y x)

/-- Multiply (US) (41_mac.md R285). -/
def execMacMulUS (z : Dest) (y : Yop) (x : Xop) (c : Cond) (s : State) : Result :=
  s.doneIf c (s.macReg z .mulUS y x)

/-- Squaring (UU) (41_mac.md R288). -/
def execMacSqUU (z : Dest) (x : Xop) (c : Cond) (s : State) : Result :=
  s.doneIf c (s.macSquare z .mulUU x)

/-- Multiply (UU) (41_mac.md R285). -/
def execMacMulUU (z : Dest) (y : Yop) (x : Xop) (c : Cond) (s : State) : Result :=
  s.doneIf c (s.macReg z .mulUU y x)

/-- Squaring with cumulative add (SS) (41_mac.md R288). -/
def execMacAddSqSS (z : Dest) (x : Xop) (c : Cond) (s : State) : Result :=
  s.doneIf c (s.macSquare z .addSS x)

/-- Transfer (41_mac.md R292). -/
def execMacCopy (z : Dest) (x : Xop) (c : Cond) (s : State) : Result :=
  s.doneIf c (s.macReg z .addSS .zero x)

/-- Multiply with cumulative add (SS) (41_mac.md R286). -/
def execMacAddSS (z : Dest) (y : YReg) (x : Xop) (c : Cond) (s : State) : Result :=
  s.doneIf c (s.macReg z .addSS (yopOf y) x)

/-- Multiply with cumulative add (SU) (41_mac.md R286). -/
def execMacAddSU (z : Dest) (y : Yop) (x : Xop) (c : Cond) (s : State) : Result :=
  s.doneIf c (s.macReg z .addSU y x)

/-- Multiply with cumulative add (US) (41_mac.md R286). -/
def execMacAddUS (z : Dest) (y : Yop) (x : Xop) (c : Cond) (s : State) : Result :=
  s.doneIf c (s.macReg z .addUS y x)

/-- Squaring with cumulative add (UU) (41_mac.md R288). -/
def execMacAddSqUU (z : Dest) (x : Xop) (c : Cond) (s : State) : Result :=
  s.doneIf c (s.macSquare z .addUU x)

/-- Multiply with cumulative add (UU) (41_mac.md R286). -/
def execMacAddUU (z : Dest) (y : Yop) (x : Xop) (c : Cond) (s : State) : Result :=
  s.doneIf c (s.macReg z .addUU y x)

/-- Squaring with cumulative subtract (SS) (41_mac.md R288). -/
def execMacSubSqSS (z : Dest) (x : Xop) (c : Cond) (s : State) : Result :=
  s.doneIf c (s.macSquare z .subSS x)

/-- Multiply with cumulative subtract (SS) (41_mac.md R287). -/
def execMacSubSS (z : Dest) (y : Yop) (x : Xop) (c : Cond) (s : State) : Result :=
  s.doneIf c (s.macReg z .subSS y x)

/-- Multiply with cumulative subtract (SU) (41_mac.md R287). -/
def execMacSubSU (z : Dest) (y : Yop) (x : Xop) (c : Cond) (s : State) : Result :=
  s.doneIf c (s.macReg z .subSU y x)

/-- Multiply with cumulative subtract (US) (41_mac.md R287). -/
def execMacSubUS (z : Dest) (y : Yop) (x : Xop) (c : Cond) (s : State) : Result :=
  s.doneIf c (s.macReg z .subUS y x)

/-- Squaring with cumulative subtract (UU) (41_mac.md R288). -/
def execMacSubSqUU (z : Dest) (x : Xop) (c : Cond) (s : State) : Result :=
  s.doneIf c (s.macSquare z .subUU x)

/-- Multiply with cumulative subtract (UU) (41_mac.md R287). -/
def execMacSubUU (z : Dest) (y : Yop) (x : Xop) (c : Cond) (s : State) : Result :=
  s.doneIf c (s.macReg z .subUU y x)

/-- A Type 9 word with no function: a conditional no-operation (30_encoding.md R169). -/
def execCondNop (c : Cond) (s : State) : Result := s.doneIf c s

/-! ### Saturation -/

/-- MR saturated by the sign bit of MR2 (41_mac.md R293). -/
def Bank.satMr (b : Bank) : Bank :=
  if b.mr2.getLsbD 7 then { b with mr2 := 0xFF, mr1 := 0x8000, mr0 := 0x0000 }
  else { b with mr2 := 0x00, mr1 := 0x7FFF, mr0 := 0xFFFF }

/-- `IF MV SAT MR` (41_mac.md R293). -/
def execSatMr (s : State) : Result := s.doneIf .mv (s.setBank s.bank.satMr)

end Sys2Proof.Machine
end

