-- ==== Sys2Proof/Machine/Shifter.lean ====
section
/-!
DEFINITION. The shifter instructions (42_shifter.md): the shifter array, the exponent detector and comparator, and the
meaning of each row of Types 15 and 16.
-/

namespace Sys2Proof.Machine

/-! ### The shifter array (42_shifter.md R321) -/

/-- The 16-bit input placed in the 32-bit output field: control code `c`, HI reference, extension bit `x`. It is
`trunc_32(V * 2^p)` rounded toward minus infinity, V the input extended to the left with `x`. -/
def shiftArray (inp : Word) (c : Int) (hi x : Bool) : BitVec 32 :=
  let v : Int := if x then (inp.toNat : Int) - 65536 else inp.toNat
  let p : Int := if hi then c + 16 else c
  BitVec.ofInt 32 (if 0 ≤ p then v * 2 ^ p.toNat else v / 2 ^ (-p).toNat)

/-- SR as one 32-bit word (42_shifter.md R320). -/
def Bank.sr (b : Bank) : BitVec 32 := b.sr1 ++ b.sr0

/-- SR written with a shifter output, ORed with the old SR if asked (42_shifter.md R323). -/
def Bank.setSr (b : Bank) (orSr : Bool) (out : BitVec 32) : Bank :=
  let v := if orSr then out ||| b.sr else out
  { b with sr0 := v.extractLsb' 0 16, sr1 := v.extractLsb' 16 16 }

/-- A shift operation on a value, committed (42_shifter.md R323). -/
def State.shiftOut (s : State) (orSr : Bool) (out : BitVec 32) : State := s.setBank (s.bank.setSr orSr out)

/-- LSHIFT by a control code (42_shifter.md R322, R326, R329). -/
def State.lshift (s : State) (hi orSr : Bool) (inp : Word) (c : BitVec 8) : State :=
  s.shiftOut orSr (shiftArray inp c.toInt hi false)

/-- ASHIFT by a control code (42_shifter.md R322, R325, R328). -/
def State.ashift (s : State) (hi orSr : Bool) (inp : Word) (c : BitVec 8) : State :=
  s.shiftOut orSr (shiftArray inp c.toInt hi (inp.getLsbD 15))

/-- NORM: the control code is the negated SE, and HI extends with AC (42_shifter.md R322, R327). -/
def State.norm (s : State) (hi orSr : Bool) (inp : Word) : State :=
  s.shiftOut orSr (shiftArray inp (-s.bank.se.toInt) hi (hi && astatAC s.st.astat))

/-! ### The exponent detector (42_shifter.md R324) -/

/-- The number of bits, from bit `k - 1` downward, that equal `b`. -/
def leadFrom (v : Word) (b : Bool) : Nat → Nat
  | 0 => 0
  | k + 1 => if v.getLsbD k == b then leadFrom v b k + 1 else 0

/-- `lead(v, s)`. -/
def lead (v : Word) (b : Bool) : Nat := leadFrom v b 16

/-- `exp_hi`. -/
def expHiOf (v : Word) : Int := -((lead v (v.getLsbD 15) : Int) - 1)

/-- `exp_lo`. -/
def expLoOf (v : Word) (ss : Bool) : Int := -(15 + (lead v ss : Int))

/-- SE and SS written (42_shifter.md R330). -/
def State.setSeSs (s : State) (e : BitVec 8) (ss : Bool) : State :=
  (s.setBank { s.bank with se := e }).setAstat (putBit s.st.astat 7 ss)

/-- EXP, HI (42_shifter.md R330). -/
def State.expHi (s : State) (inp : Word) : State := s.setSeSs (BitVec.ofInt 8 (expHiOf inp)) (inp.getLsbD 15)

/-- EXP, HIX: an overflowed ALU result takes exponent +1 and the inverted sign (42_shifter.md R330). -/
def State.expHix (s : State) (inp : Word) : State :=
  if astatAV s.st.astat then s.setSeSs 1 (!inp.getLsbD 15) else s.expHi inp

/-- EXP, LO: only if SE holds -15, with SS as the sign (42_shifter.md R330). -/
def State.expLo (s : State) (inp : Word) : State :=
  if s.bank.se.toInt = -15 then s.setBank { s.bank with se := BitVec.ofInt 8 (expLoOf inp (astatSS s.st.astat)) } else s

/-- EXPADJ: SB takes a greater exponent (42_shifter.md R331). -/
def State.expAdj (s : State) (inp : Word) : State :=
  if s.bank.sb.toInt < expHiOf inp then s.setBank { s.bank with sb := BitVec.ofInt 5 (expHiOf inp) } else s

/-! ### A shifter function by its code (30_encoding.md R179) -/

/-- A shifter function on a value; the shift codes take SE (42_shifter.md R322). -/
def State.shiftVal (s : State) (fn : ShiftFn) (inp : Word) : State :=
  match fn with
  | .lshiftHi => s.lshift true false inp s.bank.se
  | .lshiftHiOr => s.lshift true true inp s.bank.se
  | .lshiftLo => s.lshift false false inp s.bank.se
  | .lshiftLoOr => s.lshift false true inp s.bank.se
  | .ashiftHi => s.ashift true false inp s.bank.se
  | .ashiftHiOr => s.ashift true true inp s.bank.se
  | .ashiftLo => s.ashift false false inp s.bank.se
  | .ashiftLoOr => s.ashift false true inp s.bank.se
  | .normHi => s.norm true false inp
  | .normHiOr => s.norm true true inp
  | .normLo => s.norm false false inp
  | .normLoOr => s.norm false true inp
  | .expHi => s.expHi inp
  | .expHix => s.expHix inp
  | .expLo => s.expLo inp
  | .expAdj => s.expAdj inp

/-- A shifter function on the register an operand code names (42_shifter.md R320). -/
def State.shiftReg (s : State) (fn : ShiftFn) (x : ShXop) : State := s.shiftVal fn (s.bank.shX x)

/-! ### Type 15: shift immediate (42_shifter.md R328, R329) -/

/-- LSHIFT by an immediate code, HI (42_shifter.md R329). -/
def execLshiftImmHi (x : ShXop) (e : BitVec 8) (s : State) : Result :=
  s.done (s.lshift true false (s.bank.shX x) e)

/-- SR OR LSHIFT by an immediate code, HI (42_shifter.md R329). -/
def execLshiftImmHiOr (x : ShXop) (e : BitVec 8) (s : State) : Result :=
  s.done (s.lshift true true (s.bank.shX x) e)

/-- LSHIFT by an immediate code, LO (42_shifter.md R329). -/
def execLshiftImmLo (x : ShXop) (e : BitVec 8) (s : State) : Result :=
  s.done (s.lshift false false (s.bank.shX x) e)

/-- SR OR LSHIFT by an immediate code, LO (42_shifter.md R329). -/
def execLshiftImmLoOr (x : ShXop) (e : BitVec 8) (s : State) : Result :=
  s.done (s.lshift false true (s.bank.shX x) e)

/-- ASHIFT by an immediate code, HI (42_shifter.md R328). -/
def execAshiftImmHi (x : ShXop) (e : BitVec 8) (s : State) : Result :=
  s.done (s.ashift true false (s.bank.shX x) e)

/-- SR OR ASHIFT by an immediate code, HI (42_shifter.md R328). -/
def execAshiftImmHiOr (x : ShXop) (e : BitVec 8) (s : State) : Result :=
  s.done (s.ashift true true (s.bank.shX x) e)

/-- ASHIFT by an immediate code, LO (42_shifter.md R328). -/
def execAshiftImmLo (x : ShXop) (e : BitVec 8) (s : State) : Result :=
  s.done (s.ashift false false (s.bank.shX x) e)

/-- SR OR ASHIFT by an immediate code, LO (42_shifter.md R328). -/
def execAshiftImmLoOr (x : ShXop) (e : BitVec 8) (s : State) : Result :=
  s.done (s.ashift false true (s.bank.shX x) e)

/-! ### Type 16: conditional shift (42_shifter.md R325 to R327, R330, R331) -/

/-- LSHIFT, HI (42_shifter.md R326). -/
def execLshiftHi (x : ShXop) (c : Cond) (s : State) : Result :=
  s.doneIf c (s.shiftReg .lshiftHi x)

/-- SR OR LSHIFT, HI (42_shifter.md R326). -/
def execLshiftHiOr (x : ShXop) (c : Cond) (s : State) : Result :=
  s.doneIf c (s.shiftReg .lshiftHiOr x)

/-- LSHIFT, LO (42_shifter.md R326). -/
def execLshiftLo (x : ShXop) (c : Cond) (s : State) : Result :=
  s.doneIf c (s.shiftReg .lshiftLo x)

/-- SR OR LSHIFT, LO (42_shifter.md R326). -/
def execLshiftLoOr (x : ShXop) (c : Cond) (s : State) : Result :=
  s.doneIf c (s.shiftReg .lshiftLoOr x)

/-- ASHIFT, HI (42_shifter.md R325). -/
def execAshiftHi (x : ShXop) (c : Cond) (s : State) : Result :=
  s.doneIf c (s.shiftReg .ashiftHi x)

/-- SR OR ASHIFT, HI (42_shifter.md R325). -/
def execAshiftHiOr (x : ShXop) (c : Cond) (s : State) : Result :=
  s.doneIf c (s.shiftReg .ashiftHiOr x)

/-- ASHIFT, LO (42_shifter.md R325). -/
def execAshiftLo (x : ShXop) (c : Cond) (s : State) : Result :=
  s.doneIf c (s.shiftReg .ashiftLo x)

/-- SR OR ASHIFT, LO (42_shifter.md R325). -/
def execAshiftLoOr (x : ShXop) (c : Cond) (s : State) : Result :=
  s.doneIf c (s.shiftReg .ashiftLoOr x)

/-- NORM, HI (42_shifter.md R327). -/
def execNormHi (x : ShXop) (c : Cond) (s : State) : Result :=
  s.doneIf c (s.shiftReg .normHi x)

/-- SR OR NORM, HI (42_shifter.md R327). -/
def execNormHiOr (x : ShXop) (c : Cond) (s : State) : Result :=
  s.doneIf c (s.shiftReg .normHiOr x)

/-- NORM, LO (42_shifter.md R327). -/
def execNormLo (x : ShXop) (c : Cond) (s : State) : Result :=
  s.doneIf c (s.shiftReg .normLo x)

/-- SR OR NORM, LO (42_shifter.md R327). -/
def execNormLoOr (x : ShXop) (c : Cond) (s : State) : Result :=
  s.doneIf c (s.shiftReg .normLoOr x)

/-- EXP, HI (42_shifter.md R330). -/
def execExpHi (x : ShXop) (c : Cond) (s : State) : Result :=
  s.doneIf c (s.shiftReg .expHi x)

/-- EXP, HIX (42_shifter.md R330). -/
def execExpHix (x : ShXop) (c : Cond) (s : State) : Result :=
  s.doneIf c (s.shiftReg .expHix x)

/-- EXP, LO (42_shifter.md R330). -/
def execExpLo (x : ShXop) (c : Cond) (s : State) : Result :=
  s.doneIf c (s.shiftReg .expLo x)

/-- EXPADJ (42_shifter.md R331). -/
def execExpAdj (x : ShXop) (c : Cond) (s : State) : Result :=
  s.doneIf c (s.shiftReg .expAdj x)

end Sys2Proof.Machine
end

