-- ==== Sys2Proof/Machine/Multi.lean ====
section
/-!
DEFINITION. The multifunction instructions (46_multifunction.md): a computation beside one or two moves. Every clause
reads the state at the start of the instruction, and the writes are applied together (R490).
-/

namespace Sys2Proof.Machine

/-! ### The parts -/

/-- The computation of a multifunction word, unconditional (46_multifunction.md R490 (d), (e)). -/
def State.compute (s : State) (z : Dest) (cp : Comp) : State :=
  match cp with
  | .alu fn y x => s.aluReg z fn y x
  | .mac fn y x => s.macReg z fn y x

/-- The computation writes a data register (46_multifunction.md R490 (c)). -/
def compWrites (z : Dest) (cp : Comp) (d : Dreg) : Bool :=
  match z, cp, d with
  | .result, .alu .., .ar => true
  | .result, .mac .., .mr0 => true
  | .result, .mac .., .mr1 => true
  | .result, .mac .., .mr2 => true
  | _, _, _ => false

/-- The shifter function writes a data register (46_multifunction.md R490 (c)). -/
def shiftWrites (fn : ShiftFn) (d : Dreg) : Bool :=
  match fn, d with
  | .expHi, .se => true
  | .expHix, .se => true
  | .expLo, .se => true
  | .expHi, _ => false
  | .expHix, _ => false
  | .expLo, _ => false
  | .expAdj, _ => false
  | _, .sr0 => true
  | _, .sr1 => true
  | _, _ => false

/-- A data register, and MR2 with MR1, at any value (46_multifunction.md R490 (c), D16). -/
def Bank.openDreg (b : Bank) (d : Dreg) (f : Word) (g : BitVec 8) : Bank :=
  match d with
  | .mr1 => { b with mr1 := f, mr2 := g }
  | _ => b.setDreg d f

/-- The move clause's load; where the computation writes the same register its value is any value (46_multifunction.md
R490 (c), D16). -/
def State.loadBeside (s : State) (clash : Bool) (d : Dreg) (v : Word) : State :=
  if clash then
    s.setBank (s.bank.openDreg d (Config.free 16 s.freeCtr .doubleDest 0) (Config.free 8 s.freeCtr .doubleDest 1))
  else s.loadDreg d v

/-- PX replaced. -/
def State.setPx (s : State) (v : BitVec 8) : State := { s with px := v }

/-- The I register of DAG `g` that field `i` names is post-modified by the M register field `m` names (20_memory.md R120). -/
def State.post (s : State) (g : Bool) (i m : BitVec 2) : State := s.dagStep (dagNo g i) (dagNo g m)

/-- The address an indirect access through DAG `g` outputs (20_memory.md R120). -/
def State.addr (s : State) (g : Bool) (i : BitVec 2) : Addr := s.dagAddr (dagNo g i)

/-- The 24-bit word a Program Memory store of a data register writes: the register above PX (43_move.md R370). -/
def State.pmStoreWord (s : State) (d : Dreg) : PmWord := s.bank.dreg d ++ s.px

/-- A Data Memory read into a data register beside a computation that gave `t` (46_multifunction.md R492, R493). -/
def State.dmReadTo (s t : State) (clash : Bool) (g : Bool) (d : Dreg) (i m : BitVec 2) : State :=
  (t.post g i m).loadBeside clash d (s.readDm (s.addr g i))

/-- A Program Memory read into a data register and PX beside a computation that gave `t` (46_multifunction.md R492, R493). -/
def State.pmReadTo (s t : State) (clash : Bool) (d : Dreg) (i m : BitVec 2) : State :=
  let w := s.readPm (s.addr true i)
  ((t.post true i m).setPx (w.extractLsb' 0 8)).loadBeside clash d (w.extractLsb' 8 16)

/-- A Data Memory write of `v` beside a computation that gave `t` (46_multifunction.md R494, R495). -/
def State.dmWriteOf (s t : State) (g : Bool) (v : Word) (i m : BitVec 2) : State :=
  (t.post g i m).writeDm (s.addr g i) v

/-- A Program Memory write of a data register and PX beside a computation that gave `t` (46_multifunction.md R494, R495). -/
def State.pmWriteOf (s t : State) (d : Dreg) (i m : BitVec 2) : State :=
  (t.post true i m).writePm (s.addr true i) (s.pmStoreWord d)

/-- The data register a DD code names (46_multifunction.md R496). -/
def ddReg : DmDst → Dreg
  | .ax0 => .ax0
  | .ax1 => .ax1
  | .mx0 => .mx0
  | .mx1 => .mx1

/-- The data register a PD code names (46_multifunction.md R496). -/
def pdReg : PmDst → Dreg
  | .ay0 => .ay0
  | .ay1 => .ay1
  | .my0 => .my0
  | .my1 => .my1

/-- The two reads of Type 1 beside a computation that gave `t` (46_multifunction.md R496, R497, D32). -/
def State.dualTo (s t : State) (pd : PmDst) (dd : DmDst) (pi pm di dm : BitVec 2) : State :=
  let w := s.readPm (s.addr true pi)
  let u := ((t.post false di dm).post true pi pm).loadDreg (ddReg dd) (s.readDm (s.addr false di))
  let v := u.loadDreg (pdReg pd) (w.extractLsb' 8 16)
  if s.cfg.type1LoadsPx then v.setPx (w.extractLsb' 0 8) else v

/-! ### Types 1, 4, 5 and 8 -/

/-- A move of one data register to another (46_multifunction.md R498, Type 8 without a computation). -/
def execMoveDreg (dd sd : Dreg) (s : State) : Result := s.done (s.loadDreg dd (s.bank.dreg sd))

/-- An ALU computation with a register move (46_multifunction.md R498). -/
def execAluMove (z : Dest) (fn : AluFn) (y : Yop) (x : Xop) (dd sd : Dreg) (s : State) : Result :=
  s.done ((s.aluReg z fn y x).loadBeside (compWrites z (.alu fn y x) dd) dd (s.bank.dreg sd))

/-- A MAC computation with a register move (46_multifunction.md R498). -/
def execMacMove (z : Dest) (fn : MacFn) (y : Yop) (x : Xop) (dd sd : Dreg) (s : State) : Result :=
  s.done ((s.macReg z fn y x).loadBeside (compWrites z (.mac fn y x) dd) dd (s.bank.dreg sd))

/-- Data and Program Memory read (46_multifunction.md R496). -/
def execDualRead (pd : PmDst) (dd : DmDst) (pi pm di dm : BitVec 2) (s : State) : Result :=
  s.done (s.dualTo s pd dd pi pm di dm)

/-- A computation with a Data and a Program Memory read (46_multifunction.md R497). -/
def execCompDualRead (pd : PmDst) (dd : DmDst) (cp : Comp) (pi pm di dm : BitVec 2) (s : State) : Result :=
  s.done (s.dualTo (s.compute .result cp) pd dd pi pm di dm)

/-- Data Memory read, indirect (43_move.md R365). -/
def execLoadDm (g : Bool) (d : Dreg) (i m : BitVec 2) (s : State) : Result := s.done (s.dmReadTo s false g d i m)

/-- A computation with a Data Memory read (46_multifunction.md R492). -/
def execCompLoadDm (g : Bool) (z : Dest) (cp : Comp) (d : Dreg) (i m : BitVec 2) (s : State) : Result :=
  s.done (s.dmReadTo (s.compute z cp) (compWrites z cp d) g d i m)

/-- Data Memory write, indirect (43_move.md R368). -/
def execStoreDm (g : Bool) (d : Dreg) (i m : BitVec 2) (s : State) : Result :=
  s.done (s.dmWriteOf s g (s.bank.dreg d) i m)

/-- A computation with a Data Memory write (46_multifunction.md R494). -/
def execCompStoreDm (g : Bool) (z : Dest) (cp : Comp) (d : Dreg) (i m : BitVec 2) (s : State) : Result :=
  s.done (s.dmWriteOf (s.compute z cp) g (s.bank.dreg d) i m)

/-- Program Memory read, indirect (43_move.md R369). -/
def execLoadPm (d : Dreg) (i m : BitVec 2) (s : State) : Result := s.done (s.pmReadTo s false d i m)

/-- A computation with a Program Memory read (46_multifunction.md R492). -/
def execCompLoadPm (z : Dest) (cp : Comp) (d : Dreg) (i m : BitVec 2) (s : State) : Result :=
  s.done (s.pmReadTo (s.compute z cp) (compWrites z cp d) d i m)

/-- Program Memory write, indirect (43_move.md R370). -/
def execStorePm (d : Dreg) (i m : BitVec 2) (s : State) : Result := s.done (s.pmWriteOf s d i m)

/-- A computation with a Program Memory write (46_multifunction.md R494). -/
def execCompStorePm (z : Dest) (cp : Comp) (d : Dreg) (i m : BitVec 2) (s : State) : Result :=
  s.done (s.pmWriteOf (s.compute z cp) d i m)

/-- Data Memory write of immediate data, indirect (43_move.md R367). -/
def execStoreDmImm (g : Bool) (data : BitVec 16) (i m : BitVec 2) (s : State) : Result :=
  s.done (s.dmWriteOf s g data i m)

/-! ### Types 12, 13 and 14 -/

/-- A shift with a Data Memory read (46_multifunction.md R493). -/
def execShiftLoadDm (g : Bool) (fn : ShiftFn) (x : ShXop) (d : Dreg) (i m : BitVec 2) (s : State) : Result :=
  s.done (s.dmReadTo (s.shiftReg fn x) (shiftWrites fn d) g d i m)

/-- A shift with a Data Memory write (46_multifunction.md R495). -/
def execShiftStoreDm (g : Bool) (fn : ShiftFn) (x : ShXop) (d : Dreg) (i m : BitVec 2) (s : State) : Result :=
  s.done (s.dmWriteOf (s.shiftReg fn x) g (s.bank.dreg d) i m)

/-- A shift with a Program Memory read (46_multifunction.md R493). -/
def execShiftLoadPm (fn : ShiftFn) (x : ShXop) (d : Dreg) (i m : BitVec 2) (s : State) : Result :=
  s.done (s.pmReadTo (s.shiftReg fn x) (shiftWrites fn d) d i m)

/-- A shift with a Program Memory write (46_multifunction.md R495). -/
def execShiftStorePm (fn : ShiftFn) (x : ShXop) (d : Dreg) (i m : BitVec 2) (s : State) : Result :=
  s.done (s.pmWriteOf (s.shiftReg fn x) d i m)

/-- A shift with a register move (46_multifunction.md R499). -/
def execShiftMove (fn : ShiftFn) (x : ShXop) (dd sd : Dreg) (s : State) : Result :=
  s.done ((s.shiftReg fn x).loadBeside (shiftWrites fn dd) dd (s.bank.dreg sd))

end Sys2Proof.Machine
end

