-- ==== Sys2Proof/Machine/Move.lean ====
section
/-!
DEFINITION. The move instructions outside the multifunction types (43_move.md), the overlay register loads (45_misc.md
R464, R465), the TOPPCSTACK moves (45_misc.md R462, R463), MODIFY (45_misc.md R460) and the I/O moves.
-/

namespace Sys2Proof.Machine

/-- Data Memory read, direct (43_move.md R364). -/
def execLoadReg (r : Reg) (addr : Addr) (s : State) : Result := s.done (s.load r (s.readDm addr))

/-- Data Memory write, direct (43_move.md R366). -/
def execStoreReg (r : Reg) (addr : Addr) (s : State) : Result := s.done (s.writeDm addr (s.bus r))

/-- Load data register immediate (43_move.md R362). -/
def execLoadDregImm (data : BitVec 16) (d : Dreg) (s : State) : Result := s.done (s.loadDreg d data)

/-- PMOVLAY loaded with a constant (45_misc.md R464). -/
def execLoadPmovlay (data : Addr) (s : State) : Result := s.done (s.load .pmovlay (data.signExtend 16))

/-- DMOVLAY loaded with a constant (45_misc.md R465). -/
def execLoadDmovlay (data : Addr) (s : State) : Result := s.done (s.load .dmovlay (data.signExtend 16))

/-- Load non-data register immediate: the 14 bits are sign-extended to the bus (43_move.md R363). -/
def execLoadRegImm (r : Reg) (data : Addr) (s : State) : Result := s.done (s.load r (data.signExtend 16))

/-- Register move (43_move.md R360). -/
def execMoveReg (dst src : Reg) (s : State) : Result := s.done (s.load dst (s.bus src))

/-- `TOPPCSTACK = reg`: bits 13:0 are pushed at once (45_misc.md R463). -/
def execPushTop (r : Reg) (s : State) : Result :=
  let t := s.pushPc ((s.bus r).setWidth 14)
  s.done { t with lat := { t.lat with pushNew := true } }

/-- `reg = TOPPCSTACK`: the top is read, zero-extended, and popped at the end of the next instruction (45_misc.md R462).
The PC stack and, for the end of a loop (70_reset_and_hazards.md R703), the loop stack count as used. -/
def execPopTop (r : Reg) (s : State) : Result :=
  let t := s.load r (s.topPc.setWidth 16)
  let use := { t.lat.use with pcStack := true, loop := true, top := true }
  s.done { t with lat := { t.lat with popNew := true, use := use } }

/-- MODIFY (45_misc.md R460). -/
def execModify (g : Bool) (i m : BitVec 2) (s : State) : Result := s.done (s.post g i m)

/-- I/O space read (43_move.md R371). -/
def execIoRead (addr : BitVec 11) (d : Dreg) (s : State) : Result := s.done (s.loadDreg d (s.readIo addr))

/-- I/O space write (43_move.md R372). -/
def execIoWrite (addr : BitVec 11) (d : Dreg) (s : State) : Result := s.done (s.writeIo addr (s.bank.dreg d))

end Sys2Proof.Machine
end

