-- ==== Sys2Proof/Machine/Flow.lean ====
section
/-!
DEFINITION. The program flow instructions (44_program_flow.md): JUMP, CALL, their flag-in forms, RTS, RTI, DO UNTIL and
IDLE. A taken transfer does no end-of-loop action (R400, R422).
-/

namespace Sys2Proof.Machine

/-! ### The condition of JUMP and CALL -/

/-- The state after the condition of a JUMP is tested: NOT CE counts, whether or not the jump is taken (44_program_flow.md
R404, R412 (b)). -/
def State.jumpTested (s : State) (c : Cond) : State :=
  match c with
  | .notCe => s.countCeJump
  | _ => s

/-- The state after the condition of a CALL is tested; CALL_NOT_CE_DECREMENTS decides whether NOT CE counts
(44_program_flow.md R406, R412, D27). -/
def State.callTested (s : State) (c : Cond) : State := if s.cfg.callNotCeCounts then s.jumpTested c else s

/-- A jump to `a` if the condition of the start of the instruction holds (44_program_flow.md R404, R405). -/
def State.jumpTo (s : State) (c : Cond) (a : Addr) : Result :=
  if s.cond c then .next ((s.jumpTested c).setPc a) else s.done (s.jumpTested c)

/-- A call of `a` if the condition holds: the address after the call is pushed (44_program_flow.md R406, R407). -/
def State.callTo (s : State) (c : Cond) (a : Addr) : Result :=
  if s.cond c then .next (((s.callTested c).pushPc s.nextPc).setPc a) else s.done (s.callTested c)

/-! ### The instructions -/

/-- JUMP, direct (44_program_flow.md R404). -/
def execJump (addr : Addr) (c : Cond) (s : State) : Result := s.jumpTo c addr

/-- CALL, direct (44_program_flow.md R406). -/
def execCall (addr : Addr) (c : Cond) (s : State) : Result := s.callTo c addr

/-- JUMP, register indirect: I4 to I7, not post-modified (44_program_flow.md R405). -/
def execJumpInd (i : BitVec 2) (c : Cond) (s : State) : Result := s.jumpTo c s.dag.i[dagNo true i]

/-- CALL, register indirect (44_program_flow.md R407). -/
def execCallInd (i : BitVec 2) (c : Cond) (s : State) : Result := s.callTo c s.dag.i[dagNo true i]

/-- The FI sample the flag-in forms test; it is any value while SPORT1 is a serial port (44_program_flow.md R410;
61_peripherals.md R650, U54). -/
def State.fi (s : State) : Bool :=
  if s.sport1Serial then (Config.free 1 s.freeCtr .fiSample 0).getLsbD 0 else s.flags.fi

/-- JUMP on the flag-in pin (44_program_flow.md R410). -/
def execJumpFlagIn (addr : Addr) (fic : Bool) (s : State) : Result :=
  if s.fi == fic then .next (s.setPc addr) else s.done s

/-- CALL on the flag-in pin (44_program_flow.md R410). -/
def execCallFlagIn (addr : Addr) (fic : Bool) (s : State) : Result :=
  if s.fi == fic then .next ((s.pushPc s.nextPc).setPc addr) else s.done s

/-- The state after a taken RTS: only the PC stack is popped (44_program_flow.md R408). -/
def State.returnSub (s : State) : State :=
  let t := s.popPc.setPc s.topPc
  { t with lat := { t.lat with use := { t.lat.use with retPop := true } } }

/-- RTS (44_program_flow.md R408). -/
def execRts (c : Cond) (s : State) : Result := if s.cond c then .next s.returnSub else s.done s

/-- RTI (44_program_flow.md R409). -/
def execRti (c : Cond) (s : State) : Result := if s.cond c then .next s.returnInterrupt else s.done s

/-- DO UNTIL with the loop stack or the PC stack full: the overflow bits, and nothing else (44_program_flow.md R420, D30); it
counts as a use of the PC stack for a delayed pop that meets it (45_misc.md R462). -/
def State.doFull (s : State) : State :=
  let l := s.seq.loopStk
  let p := s.seq.pcStk
  { s with
    seq := { s.seq with
      loopStk := { l with ovf := l.ovf || l.isFull loopDepth }
      pcStk := { p with ovf := p.ovf || p.isFull pcDepth } }
    lat := { s.lat with use := { s.lat.use with full := true } } }

/-- DO UNTIL (44_program_flow.md R420). The first body address also goes into the loop entry. -/
def execDoUntil (addr : Addr) (t : Term) (s : State) : Result :=
  if s.seq.loopStk.isFull loopDepth || s.seq.pcStk.isFull pcDepth then s.done s.doFull
  else s.done ((s.pushLoop { last := addr, term := t, first := s.nextPc }).pushPc s.nextPc)

/-- IDLE powers the core down: a powerdown sequence is in progress, and PWD is low or PDFORCE started it
(61_peripherals.md R640). -/
def State.idlePowersDown (s : State) : Bool := s.irq.pdSeq && (!s.irq.pwdPin || s.irq.pdForced)

/-- IDLE with a divisor: the PC goes on without an end-of-loop action and the core waits (44_program_flow.md R430), or is
powered down (61_peripherals.md R640); powering down under an active BDMA transfer is not specified (R641 (e), U52). -/
def State.idleWith (s : State) (n : Nat) : Result :=
  if s.idlePowersDown then
    if s.bdma.active then .refused .powerdownDuringBdma
    else .next { s.setPc s.nextPc with core := .powerDown }
  else .next { s.setPc s.nextPc with core := .idle n }

/-- IDLE (44_program_flow.md R430). -/
def execIdle (s : State) : Result := s.idleWith 1

/-- The divisor of IDLE (n). -/
def slowDivisor : SlowDiv → Nat
  | .by16 => 16
  | .by32 => 32
  | .by64 => 64
  | .by128 => 128

/-- IDLE (n) (44_program_flow.md R430, D22). -/
def execIdleSlow (n : SlowDiv) (s : State) : Result := s.idleWith (slowDivisor n)

end Sys2Proof.Machine
end

