-- ==== Sys2Proof/Machine/Misc.lean ====
section
/-!
DEFINITION. The remaining instructions of 45_misc.md: stack control, mode control, ENA INTS and DIS INTS, the flag
outputs, NOP; and the reserved Type 22.
-/

namespace Sys2Proof.Machine

/-! ### Stack control -/

/-- The status stack clause (45_misc.md R451, R452); codes 00 and 01 are no change. -/
def State.stsOp (s : State) : StsOp → State
  | .keep0 => s
  | .keep1 => s
  | .push => s.pushSts
  | .pop => s.popSts

/-- POP PC (45_misc.md R454), a pop of 70_reset_and_hazards.md R705. -/
def State.discardPc (s : State) : State :=
  let t := s.popPc
  { t with lat := { t.lat with use := { t.lat.use with retPop := true } } }

/-- Stack control (45_misc.md R450); the interrupt field code 00 or 01 is no change. -/
def execStackControl (_iq pp lp cp : Bool) (spp : StsOp) (s : State) : Result :=
  let t1 := s.stsOp spp
  let t2 := if cp then t1.popCntr else t1
  let t3 := if pp then t2.discardPc else t2
  s.done (if lp then t3.popLoop else t3)

/-! ### Modes and interrupt enable -/

/-- One ENA or DIS clause on a bit of MSTAT (45_misc.md R455). -/
def modeBit (op : ModeOp) (k : Nat) (m : BitVec 7) : BitVec 7 :=
  match op with
  | .keep0 => m
  | .keep1 => m
  | .disable => putBit m k false
  | .enable => putBit m k true

/-- Mode control (45_misc.md R455). -/
def execModeControl (tim mac sat ovl rev sec go : ModeOp) (s : State) : Result :=
  let m := modeBit sec 0 (modeBit rev 1 (modeBit ovl 2 (modeBit sat 3 (modeBit mac 4 (modeBit tim 5 (modeBit go 6
    s.st.mstat))))))
  s.done { s with st := { s.st with mstat := m } }

/-- ENA INTS (45_misc.md R457). -/
def execEnaInts (s : State) : Result := s.done { s with st := { s.st with intEnable := true } }

/-- DIS INTS (45_misc.md R458). -/
def execDisInts (s : State) : Result := s.done { s with st := { s.st with intEnable := false } }

/-! ### Flag outputs -/

/-- The operation on one flag latch (45_misc.md R459). -/
def flagApply : FlagOp → Bool → Bool
  | .keep, b => b
  | .toggle, b => !b
  | .reset, _ => false
  | .set, _ => true

/-- Modify flag out (45_misc.md R459). -/
def execFlagOut (f2 f1 f0 fo : FlagOp) (c : Cond) (s : State) : Result :=
  s.doneIf c { s with flags := { s.flags with
    fl2 := flagApply f2 s.flags.fl2
    fl1 := flagApply f1 s.flags.fl1
    fl0 := flagApply f0 s.flags.fl0
    fo := flagApply fo s.flags.fo } }

/-! ### NOP and Type 22 -/

/-- NOP (45_misc.md R461). -/
def execNop (s : State) : Result := s.done s

/-- Type 22: reserved, with no effect in the spec; a model refuses it (30_encoding.md R185, R192 item 1, D2, U16). -/
def execType22 (_low : BitVec 16) (_s : State) : Result := .refused (.reservedWord .type22)

end Sys2Proof.Machine
end

