-- ==== Sys2Proof/Machine/Devices.lean ====
section
/-!
DEFINITION. The devices as agents (61_peripherals.md R580): what each event of the outside world does, one serial word,
one autobuffer transfer, one BDMA word, one IDMA access, powerdown and its exit, bus request, and reset.
-/

namespace Sys2Proof.Machine

/-! ### Pins -/

/-- The request latch of a level set (60_exceptions.md R522). -/
def State.setLatch (s : State) (k : Nat) : State := { s with irq := { s.irq with latch := putBit s.irq.latch k true } }

/-- The levels whose pin is edge-sensitive now: IRQE, and IRQ2, IRQ1, IRQ0 by ICNTL, the last two only in SPORT1's
alternate configuration (60_exceptions.md R521, R522, R524). -/
def State.pinEdge (s : State) (k : Nat) : Bool :=
  match k with
  | 9 => s.lat.icntlEff.getLsbD 2
  | 4 => true
  | 2 => !s.sport1Serial && s.lat.icntlEff.getLsbD 1
  | 1 => !s.sport1Serial && s.lat.icntlEff.getLsbD 0
  | _ => false

/-- The levels that have a pin (60_exceptions.md R521). -/
def hasPin (k : Nat) : Bool := k == 9 || k == 8 || k == 7 || k == 4 || k == 2 || k == 1

/-- The request latches take edges in every state, reset excepted (70_reset_and_hazards.md R690, R691; of 60_exceptions.md R544
see notes/assumptions/46.md). -/
def State.takesEdge (s : State) : Bool := s.core != .inReset

/-- An interrupt pin takes a level; a falling edge of an edge-sensitive pin is latched (60_exceptions.md R522, R523;
70_reset_and_hazards.md R691). -/
def State.irqPinEvent (s : State) (k : Fin 10) (high : Bool) : State :=
  if hasPin k.val then
    let falls := s.irq.pins.getLsbD k.val && !high
    let t := { s with irq := { s.irq with pins := putBit s.irq.pins k.val high } }
    if falls && s.pinEdge k.val && s.takesEdge then t.setLatch k.val else t
  else s

/-- PUCR: bit 12 of DM 0x3FEF (10_state.md R49). -/
def State.pucr (s : State) : Bool := s.sp1.auto.getLsbD 12

/-- Powerdown ends through the PWD pin: the context reset if PUCR is 1, else the program goes on; a bus request made
meanwhile is granted (61_peripherals.md R641 (f), R642). -/
def State.powerUp (s : State) : State :=
  let t := if s.pucr then s.contextReset
    else { s with core := .running, irq := { s.irq with pdSeq := false } }
  { t with bg := s.br }

/-- The PWD pin takes a level: a falling edge requests the powerdown interrupt, a rising edge ends powerdown
(60_exceptions.md R550; 61_peripherals.md R642). -/
def State.pwdPinEvent (s : State) (high : Bool) : State :=
  let t := { s with irq := { s.irq with pwdPin := high } }
  if s.irq.pwdPin && !high && s.takesEdge then
    { t with irq := { t.irq with latchPwd := true, pdForced := false } }
  else if !s.irq.pwdPin && high && s.core == .powerDown then t.powerUp
  else t

/-- The cycles left, after `n` more, of the BDMA byte access in progress; 0 between two of them (61_peripherals.md R617). -/
def State.byteLeft (s : State) (n : Nat) : Nat := if s.bdma.active then (s.bdma.wait - n) % (s.bmwait + 1) else 0

/-- Bus request: granted, except in powerdown, at once or, where a BDMA byte access is in progress, at its end, by `bdmaTick`; the
release withdraws request and grant (20_memory.md R137; 70_reset_and_hazards.md R731). -/
def State.busRequestEvent (s : State) (b : Bool) : State :=
  { s with br := b, bg := b && (s.bg || (s.core != .powerDown && s.byteLeft 0 == 0)) }

/-- The bus is not free for an access of the core: it is granted, or a BDMA byte access ends on it that the grant waits for
(70_reset_and_hazards.md R731). -/
def State.busTaken (s : State) : Bool := s.bg || (s.br && s.byteLeft 0 != 0)

/-! ### Serial words -/

/-- SLEN is 0 or 1, which is not permitted (62_serial_ports.md R584, U60). -/
def Sport.badLen (p : Sport) : Bool := decide (field p.ctl 0 4 < 2)

/-- ISCLK: the port generates its serial clock (10_state.md R45). -/
def Sport.isclk (p : Sport) : Bool := p.ctl.getLsbD 14

/-- ITFS: the transmit frame sync is internal (10_state.md R45). -/
def Sport.itfs (p : Sport) : Bool := p.ctl.getLsbD 9

/-- MCE: SPORT0 is in multichannel mode (10_state.md R45). -/
def State.mce (s : State) : Bool := s.sp0.ctl.getLsbD 15

/-- TBUF (10_state.md R48). -/
def Sport.tbuf (p : Sport) : Bool := p.auto.getLsbD 1

/-- RBUF (10_state.md R48). -/
def Sport.rbuf (p : Sport) : Bool := p.auto.getLsbD 0

/-- The interrupt level of a port's transmitter. -/
def txLevel (n : Fin 2) : Nat := if n = 0 then 6 else 2

/-- The interrupt level of a port's receiver. -/
def rxLevel (n : Fin 2) : Nat := if n = 0 then 5 else 1

/-- A word of `len` bits kept. -/
def lowBits (len : Nat) (w : Word) : Word := BitVec.ofNat 16 (w.toNat % 2 ^ len)

/-- `sport_tx_take` and `request_tx` (62_serial_ports.md R587, R590). -/
def State.txTake (s : State) (n : Fin 2) : State :=
  let p := s.sport n
  let t := s.setSport n { p with
    tsr := lowBits p.len p.tx, txFull := false, txReq := p.txReq || p.tbuf }
  if p.tbuf then t else t.setLatch (txLevel n)

/-- `format_rx` (62_serial_ports.md R584). -/
def Sport.formatRx (p : Sport) (w : Word) : Word :=
  let v := lowBits p.len w
  if p.companding then (if p.aLaw then expandA (v.setWidth 8) else expandMu (v.setWidth 8))
  else if p.aLaw && v.getLsbD (p.len - 1) then v ||| BitVec.ofNat 16 (65536 - 2 ^ p.len)
  else v

/-- `sport_rx_word` and `request_rx`, the expansion included, which takes the expansion circuit for the cycle
(62_serial_ports.md R593, R594, R596); an expansion still due of a value written to RXn is dropped (DESIGN CHOICE,
notes/assumptions/53.md). A word under which the format or the framing was changed is any value (R584, U61). -/
def State.rxWord (s : State) (n : Fin 2) (w : Word) : State :=
  let p := s.sport n
  let mixed := p.transit == .mixed
  let t := s.setSport n { p with
    rsr := if mixed then Config.free 16 s.freeCtr .serialWord (2 + n.val) else lowBits p.len w
    rx := if mixed then Config.free 16 s.freeCtr .serialWord (4 + n.val) else p.formatRx w
    transit := .idle, expNew := false, expDue := false
    expBusy := p.expBusy || p.companding, rxReq := p.rxReq || p.rbuf }
  if p.rbuf then t else t.setLatch (rxLevel n)

/-- The serial side of a port is active: the port is enabled, and in powerdown its clock is external (62_serial_ports.md
R582, R605; 61_peripherals.md R641 (d)). -/
def State.serialActive (s : State) (n : Fin 2) : Bool :=
  s.sportOn n && s.core != .inReset && (s.core != .powerDown || !(s.sport n).isclk)

/-- The transmitter may take a word: no compression is pending, and with an internal frame sync TXn has been written and
the core is not powered down (62_serial_ports.md R587, R588, R593; 61_peripherals.md R641 (d)). -/
def State.canTake (s : State) (n : Fin 2) : Bool :=
  let p := s.sport n
  !p.compNew && !p.compDue && (!p.itfs || (p.txFull && s.core != .powerDown))

/-- The event `sport_tx_take(n)`; where its precondition fails nothing happens. Port 0 in multichannel mode is driven by
`mcSlot` instead. -/
def State.sportTxEvent (s : State) (n : Fin 2) : Result :=
  if s.serialActive n && !(decide (n = 0) && s.mce) then
    if (s.sport n).badLen then .refused .slenNotPermitted
    else if s.canTake n then .next (s.txTake n)
    else .next s
  else .next s

/-- The event `sport_rx_word(n, w)`. -/
def State.sportRxEvent (s : State) (n : Fin 2) (w : Word) : Result :=
  if s.serialActive n && !(decide (n = 0) && s.mce) then
    if (s.sport n).badLen then .refused .slenNotPermitted else .next (s.rxWord n w)
  else .next s

/-- The event `sportRxStart(n)`: a word begins to arrive at an active port. -/
def State.sportRxStartEvent (s : State) (n : Fin 2) : State :=
  if s.serialActive n then s.setSport n { s.sport n with transit := .shifting } else s

/-- The number of word slots of a multichannel block: MCL is bit 9 (62_serial_ports.md R601). -/
def State.mcLen (s : State) : Nat := if s.sp0.ctl.getLsbD 9 then 32 else 24

/-- RFS0 opens a block: the word counter restarts (62_serial_ports.md R602). -/
def State.mcSyncEvent (s : State) : State :=
  if s.serialActive 0 && s.mce then { s with mc := { s.mc with slot := 0 } } else s

/-- One multichannel word slot: the enabled directions take and deliver a word (62_serial_ports.md R602). While a compression is
pending TX0 is not taken and the slot passes (R593; DESIGN CHOICE, notes/assumptions/51.md). -/
def State.mcSlotEvent (s : State) (w : Word) : Result :=
  if s.serialActive 0 && s.mce && decide (s.mc.slot < s.mcLen) then
    if s.sp0.badLen then .refused .slenNotPermitted
    else
      let k := s.mc.slot
      let t := if s.mc.txEn.getLsbD k && !s.sp0.compNew && !s.sp0.compDue then s.txTake 0 else s
      let u := if s.mc.rxEn.getLsbD k then t.rxWord 0 w else t
      .next { u with mc := { u.mc with slot := k + 1 }, sp0 := { u.sp0 with transit := .idle } }
  else .next s

/-! ### Autobuffer transfers (62_serial_ports.md R597 to R599) -/

/-- The I register a port's transmit autobuffer uses: TIREG (10_state.md R48). -/
def Sport.txI (p : Sport) : Fin 8 := Fin.ofNat 8 (field p.auto 9 3)

/-- The M register of the transmit autobuffer: in the DAG of the I register (10_state.md R48). -/
def Sport.txM (p : Sport) : Fin 8 := Fin.ofNat 8 (p.txI.val / 4 * 4 + field p.auto 7 2)

/-- The I register a port's receive autobuffer uses: RIREG. -/
def Sport.rxI (p : Sport) : Fin 8 := Fin.ofNat 8 (field p.auto 4 3)

/-- The M register of the receive autobuffer. -/
def Sport.rxM (p : Sport) : Fin 8 := Fin.ofNat 8 (p.rxI.val / 4 * 4 + field p.auto 2 2)

/-- The update of the I register wraps (62_serial_ports.md R597, R598, D39). -/
def State.wraps (s : State) (i m : Fin 8) : Bool := dagWraps s.dag.i[i] s.dag.m[m] s.dag.l[i]

/-- A one-cycle action a transfer between two instructions starts is due at the end of the next instruction. -/
def State.dueNow (s : State) : State :=
  { s with lat := { s.lat with pdDue := s.lat.pdDue || s.lat.pdNew, pdNew := false, tcountSet := false } }

/-- `autobuffer_tx(n)` (62_serial_ports.md R597); the word loaded is compressed in the next cycle (R593), in place of a value
before it whose compression is still due (DESIGN CHOICE, notes/assumptions/53.md). -/
def State.autoTx (s : State) (n : Fin 2) : State :=
  let p := s.sport n
  let v := s.readDm (s.dagAddr p.txI)
  let t := (s.setSport n { p with
    txReq := false, tx := v, txFull := true, compDue := p.companding }).dagStep p.txI p.txM
  if s.wraps p.txI p.txM then t.setLatch (txLevel n) else t

/-- `autobuffer_rx(n)` (62_serial_ports.md R597). The word stored is RXn as the equivalent instruction reads it: while the
expansion of a value written to RXn is still due, either value (R593, U63; notes/assumptions/23.md). -/
def State.autoRx (s : State) (n : Fin 2) : State :=
  let p := s.sport n
  let t := ((s.setSport n { p with rxReq := false }).dagStep p.rxI p.rxM).writeDm (s.dagAddr p.rxI) (s.readRx n)
  (if s.wraps p.rxI p.rxM then t.setLatch (rxLevel n) else t).dueNow

/-- The Data Memory address of the autobuffer transfer to make at this boundary (62_serial_ports.md R597, R599). -/
def State.autobufferAddr (s : State) : Option Addr :=
  if s.sp0.txReq then some (s.dagAddr s.sp0.txI)
  else if s.sp0.rxReq then some (s.dagAddr s.sp0.rxI)
  else if s.sp1.txReq then some (s.dagAddr s.sp1.txI)
  else if s.sp1.rxReq then some (s.dagAddr s.sp1.rxI)
  else none

/-- The autobuffer transfer to make at this boundary, by priority (62_serial_ports.md R599). -/
def State.autobuffer (s : State) : Option State :=
  if s.sp0.txReq then some (s.autoTx 0)
  else if s.sp0.rxReq then some (s.autoRx 0)
  else if s.sp1.txReq then some (s.autoTx 1)
  else if s.sp1.rxReq then some (s.autoRx 1)
  else none

/-! ### BDMA (61_peripherals.md R611 to R622) -/

/-- The byte address on the bus: whole, or in Host Memory Mode the page and A0 (20_memory.md R118 (d)). -/
def State.bmAddr (s : State) (a : BitVec 22) : BitVec 22 := if s.hostMode then a &&& 0x3FC001 else a

/-- A byte of Byte Memory. -/
def State.readBm (s : State) (a : BitVec 22) : Byte := memGet s.mem (bmPlace (s.bmAddr a))

/-- A byte of Byte Memory written. -/
def State.writeBm (s : State) (a : BitVec 22) (v : Byte) : State :=
  { s with mem := memSet s.mem (bmPlace (s.bmAddr a)) v }

/-- The word at a place of Program Memory, any value where there is none. -/
def State.pmIntRead (s : State) (l : Option Loc) (free : PmWord) : PmWord :=
  match l with
  | some l => memGet24 s.mem l.base
  | none => free

/-- The word at a place of Data Memory, any value where there is none. -/
def State.dmIntRead (s : State) (l : Option Loc) (free : Word) : Word :=
  match l with
  | some l => memGet16 s.mem l.base
  | none => free

/-- A word written at a place of Program Memory, lost where there is none. -/
def State.pmIntWrite (s : State) (l : Option Loc) (w : PmWord) : State :=
  match l with
  | some l => { s with mem := memSet24 s.mem l.base w }
  | none => s

/-- A word written at a place of Data Memory, lost where there is none. -/
def State.dmIntWrite (s : State) (l : Option Loc) (w : Word) : State :=
  match l with
  | some l => { s with mem := memSet16 s.mem l.base w }
  | none => s

/-- The 22-bit byte address of the next word (61_peripherals.md R612). -/
def Bdma.byteAddr (b : Bdma) : BitVec 22 := BitVec.ofNat 22 (b.bmpage * 16384 + b.bead.toNat)

/-- The memory transfer of one word (61_peripherals.md R612); the control registers are protected (U42). -/
def State.bdmaMove (s : State) : State :=
  let b := s.bdma
  let a := b.byteAddr
  let pm := s.pmDma s.bmovlay b.biad
  let dm := s.dmDma s.bmovlay b.biad
  if b.bdir then
    let w := s.pmIntRead pm (Config.free 24 s.freeCtr .readAbsent 2)
    let v := s.dmIntRead dm (Config.free 16 s.freeCtr .readAbsent 3)
    match b.btype with
    | 0 => ((s.writeBm a (w.extractLsb' 16 8)).writeBm (a + 1) (w.extractLsb' 8 8)).writeBm (a + 2) (w.extractLsb' 0 8)
    | 1 => (s.writeBm a (v.extractLsb' 8 8)).writeBm (a + 1) (v.extractLsb' 0 8)
    | 2 => s.writeBm a (v.extractLsb' 8 8)
    | _ => s.writeBm a (v.extractLsb' 0 8)
  else
    match b.btype with
    | 0 => s.pmIntWrite pm (s.readBm a ++ s.readBm (a + 1) ++ s.readBm (a + 2))
    | 1 => s.dmIntWrite dm (s.readBm a ++ s.readBm (a + 1))
    | 2 => s.dmIntWrite dm (s.readBm a ++ (0 : Byte))
    | _ => s.dmIntWrite dm ((0 : Byte) ++ s.readBm a)

/-- BMPAGE, BEAD, BIAD and BWCOUNT after one word (61_peripherals.md R612, R613). -/
def State.bdmaAdvance (s : State) : State :=
  let b := s.bdma
  let a := b.byteAddr + BitVec.ofNat 22 b.bytes
  let count := b.bwcount - 1
  { s with bdma := { b with
      ctl := (b.ctl &&& 0x00FF) ||| (a.extractLsb' 14 8 ++ (0 : Byte))
      bead := a.extractLsb' 0 14
      biad := b.biad + 1
      bwcount := count
      active := count != 0
      wait := s.bdmaWait } }

/-- `bdma_word()` (61_peripherals.md R612): the word is moved, the registers advance, and the last word raises the BDMA
interrupt and, with BCR 1, resets the context (R615, R622). -/
def State.bdmaWord (s : State) : Result :=
  if s.bdma.bcr && !s.bdma.bcrStart then .refused .bcrSetMidTransfer
  else
    let t := s.bdmaMove.bdmaAdvance
    if t.bdma.active then .next t
    else
      let u := t.setLatch 3
      .next (if u.bdma.bcr then u.contextReset else u)

/-! ### IDMA (61_peripherals.md R625 to R635) -/

/-- The Program Memory page of the overlay register: IDPMOVLAY, page 0 on members without it (61_peripherals.md R627). -/
def State.idPm (s : State) : Nat := if s.cfg.member.hasIdmaOvl then field s.idma.ovl 0 4 else 0

/-- The Data Memory page of the overlay register: IDDMOVLAY. -/
def State.idDm (s : State) : Nat := if s.cfg.member.hasIdmaOvl then field s.idma.ovl 4 4 else 0

/-- The IDMA port replaced. -/
def State.setIdma (s : State) (d : Idma) : State := { s with idma := d }

/-- The release of an IDMA boot: the word written was at PM 0x0000 (61_peripherals.md R628, R634). -/
def State.idmaRelease (s : State) (a : Addr) : State :=
  if s.core == .heldIdma && a == 0 then { s with core := .running, seq := { s.seq with pc := 0, prefetch := none } }
  else s

/-- A host access that turns from reading to writing, or back, between the two halves of a word: the word concerned, the
half expected and the words in the port are any value, and the word may count as completed (61_peripherals.md R629, U47;
notes/assumptions/49.md). -/
def State.idmaSwitched (s : State) : State :=
  let d := s.idma
  let f (j : Nat) : PmWord := Config.free 24 s.freeCtr .idmaSwitch j
  let done := (f 0).getLsbD 0
  let t := (s.pmIntWrite (s.pmDma s.idPm d.addr) (f 1)).setIdma { d with
    addr := if done then d.addr + 1 else d.addr
    half := if (f 0).getLsbD 1 then .first else if (f 0).getLsbD 2 then .secondRead else .secondWrite
    holding := (f 2).setWidth 16
    readBuf := f 3
    out := (f 4).setWidth 16 }
  if done then t.idmaRelease d.addr else t

/-- `idma_read()` (61_peripherals.md R627, R631): the word the host receives goes to `out`. -/
def State.idmaReadStep (s : State) : Result :=
  let d := s.idma
  if d.toDm then
    let v := s.dmIntRead (s.dmDma s.idDm d.addr) (Config.free 16 s.freeCtr .idmaRead 0)
    .next (s.setIdma { d with out := v, addr := d.addr + 1 })
  else
    match d.half with
    | .first =>
      let w := s.pmIntRead (s.pmDma s.idPm d.addr) (Config.free 24 s.freeCtr .idmaRead 1)
      .next (s.setIdma { d with readBuf := w, half := .secondRead, out := w.extractLsb' 8 16 })
    | .secondRead =>
      .next (s.setIdma { d with out := (d.readBuf.extractLsb' 0 8).setWidth 16, half := .first, addr := d.addr + 1 })
    | .secondWrite => .next s.idmaSwitched

/-- `idma_write(v)` (61_peripherals.md R628, R631). -/
def State.idmaWriteStep (s : State) (v : Word) : Result :=
  let d := s.idma
  if d.toDm then .next ((s.dmIntWrite (s.dmDma s.idDm d.addr) v).setIdma { d with addr := d.addr + 1 })
  else
    match d.half with
    | .first => .next (s.setIdma { d with holding := v, half := .secondWrite })
    | .secondWrite =>
      let t := s.pmIntWrite (s.pmDma s.idPm d.addr) (d.holding ++ v.extractLsb' 0 8)
      .next ((t.setIdma { d with half := .first, addr := d.addr + 1 }).idmaRelease d.addr)
    | .secondRead => .next s.idmaSwitched

/-- `idma_latch(v)`: the overlay register if bit 15 is 1 and the member has it, else the address (61_peripherals.md R626,
U45). -/
def State.idmaLatchStep (s : State) (v : Word) : State :=
  s.setIdma (if v.getLsbD 15 && s.cfg.member.hasIdmaOvl then s.idma.latchOvl v else s.idma.latchAddr v)

/-- A host access carried out. -/
def State.idmaStep (s : State) (op : IdmaOp) : Result :=
  match op with
  | .read => s.idmaReadStep
  | .write v => s.idmaWriteStep v
  | .latch v => .next (s.idmaLatchStep v)

/-- The access reaches internal memory, and so waits for an instruction boundary and steals a cycle there: all but a latch, the
second half of a Program Memory read and the first half of a Program Memory write (61_peripherals.md R626 to R628). -/
def Idma.steals (d : Idma) : IdmaOp → Bool
  | .read => d.toDm || d.half != .secondRead
  | .write _ => d.toDm || d.half != .first
  | .latch _ => false

/-- A host access arrives: one that needs a cycle waits in `pend` for an instruction boundary, another is done at once; while
the core is powered down every one waits (61_peripherals.md R627, R628, R632, R635, R641 (a)), an address or overlay latch too
(DESIGN CHOICE, notes/assumptions/56.md). -/
def State.idmaEvent (s : State) (op : IdmaOp) : Result :=
  if s.core = .inReset then .next s
  else if !s.hasIdmaPort then .refused .noIdmaPort
  else if s.core = .heldBdma then .refused .idmaDuringBdma
  else if s.idma.pend.isSome then .refused .idmaBusy
  else if s.idma.steals op || s.core == .powerDown then .next (s.setIdma { s.idma with pend := some op })
  else s.idmaStep op

/-- A host latch in the cycle of a core write of IDMA Control or IDMA Overlay: the address, its memory and the overlay are any
value (10_state.md R55; 61_peripherals.md R626; U5). -/
def State.idmaContention (s : State) : State :=
  let f (j : Nat) : Word := Config.free 16 s.freeCtr .idmaControl j
  s.setIdma { s.idma with
    addr := (f 0).setWidth 14
    toDm := (f 1).getLsbD 0
    ovl := if s.cfg.member.hasIdmaOvl then putBit (f 2) 15 false else s.idma.ovl
    half := .first }

/-! ### The external bus master (20_memory.md R137) -/

/-- A write by the bus master, while the bus is granted. -/
def State.masterWrite (s : State) (t : State) : State := if s.bg then t else s

/-- An external Program Memory word as the master addresses it. -/
def State.masterPmEvent (s : State) (page2 : Bool) (off : BitVec 13) (w : PmWord) : State :=
  s.masterWrite { s with mem := memSet24 s.mem (s.pmExt (if page2 then 2 else 1) off.toNat).base w }

/-- An external Data Memory word as the master addresses it. -/
def State.masterDmEvent (s : State) (page2 : Bool) (off : BitVec 13) (w : Word) : State :=
  s.masterWrite { s with mem := memSet16 s.mem (s.dmExt (if page2 then 2 else 1) off.toNat).base w }

/-- A byte of Byte Memory as the master addresses it. -/
def State.masterBmEvent (s : State) (a : BitVec 22) (v : Byte) : State := s.masterWrite (s.writeBm a v)

/-- The board presents a word at an I/O address (20_memory.md R103, U11). -/
def State.ioPresentEvent (s : State) (a : BitVec 11) (w : Word) : State :=
  { s with io := { s.io with present := (a, w) :: s.io.present } }

/-! ### Reset (70_reset_and_hazards.md R680 to R685) -/

/-- A bank at any values: the spec calls it undefined after reset (10_state.md R80, U1). -/
def Bank.openAll (f : Nat → Word) : Bank :=
  { ax0 := f 0, ax1 := f 1, ay0 := f 2, ay1 := f 3, ar := f 4, af := f 5, mx0 := f 6, mx1 := f 7, my0 := f 8
    my1 := f 9, mf := f 10, mr0 := f 11, mr1 := f 12, mr2 := (f 13).setWidth 8, si := f 14
    se := (f 15).setWidth 8, sb := (f 16).setWidth 5, sr0 := f 17, sr1 := f 18 }

/-- Eight DAG registers at any values. -/
def openRegs (f : Nat → Word) (k : Nat) : Vector Addr 8 :=
  #v[(f k).setWidth 14, (f (k + 1)).setWidth 14, (f (k + 2)).setWidth 14, (f (k + 3)).setWidth 14,
    (f (k + 4)).setWidth 14, (f (k + 5)).setWidth 14, (f (k + 6)).setWidth 14, (f (k + 7)).setWidth 14]

/-- A serial port after reset: the control register and the autobuffer enables 0, the data and divide registers and the
index fields at any values, the divide counters, which R80 does not list, too, requests and pending companding dropped
(10_state.md R80; 70_reset_and_hazards.md R680). -/
def Sport.openReset (f : Nat → Word) (k : Nat) : Sport :=
  { Sport.reset with
    rx := f k, tx := f (k + 1), sclkdiv := f (k + 2), rfsdiv := f (k + 3), auto := f (k + 4) &&& 0x0FFC
    tsr := f (k + 5), rsr := f (k + 6), sclkCnt := (f (k + 7)).toNat, rfsCnt := (f (k + 8)).toNat, divCur := f (k + 9) }

/-- `reset_assert()`: every register R80 gives a value takes it, every register it calls undefined and every counter it
does not list takes any value; the memories, FO and the pins stay (70_reset_and_hazards.md R680; 10_state.md R80). -/
def State.resetAssertEvent (s : State) : State :=
  let f (k : Nat) : Word := Config.free 16 s.freeCtr .resetReg k
  let mn := s.cfg.member.isMN
  { s with
    pri := .openAll f
    sec := .openAll (fun k => f (20 + k))
    dag := { i := openRegs f 40, m := openRegs f 48, l := openRegs f 56 }
    px := (f 64).setWidth 8
    seq := { Seq.reset with cntr := (f 65).setWidth 14 }
    st := { astat := 0, mstat := 0, imask := 0, icntl := (f 66).setWidth 5, intEnable := true, pmovlay := 0, dmovlay := 0 }
    irq := { s.irq with latch := 0, latchPwd := false, pdSeq := false, pdForced := false, timerWait := 0 }
    lat := .none ((f 66).setWidth 5)
    timer := { tperiod := f 67, tcount := f 68, tscale := (f 69).setWidth 8, tps := (f 101).setWidth 8 }
    ctl := { sysCtl := 0x0407, waitCtl := if mn then 0xFFFF else 0x7FFF, pfCtl := if mn then 0xFB00 else 0x7B00 }
    sp0 := .openReset f 70
    sp1 := .openReset f 80
    mc := { rxEn := f 90 ++ f 91, txEn := f 92 ++ f 93, slot := ((f 102).setWidth 6).toNat }
    bdma := { ctl := 0x0008, bwcount := 0x20, bead := 0, biad := 0, active := false, wait := 0, bcrStart := true }
    idma := { addr := (f 94).setWidth 14, toDm := (f 95).getLsbD 0, ovl := 0, half := .first, holding := f 96
              readBuf := f 97 ++ (f 98).setWidth 8, out := s.idma.out, pend := none
              coreWrote := false }
    flags := { s.flags with fl0 := true, fl1 := true, fl2 := true, fi := (f 99).getLsbD 0, pfOut := (f 100).setWidth 8 }
    core := .inReset
    bg := s.br
    stalled := false
    held := .none
    amid := 0 }

/-- The boot of the mode pins begins (70_reset_and_hazards.md R682, R683, R685). -/
def State.startBoot (s : State) (b : Boot) : State :=
  match b with
  | .bdma => { s with core := .heldBdma, bdma := { s.bdma with active := true, wait := s.bdmaWait, bcrStart := true } }
  | .idma => { s with core := .heldIdma }
  | .none => { s with core := .running }

/-- `reset_release()`: the mode pins are latched and the boot they select starts; combinations the tables leave out are
refused (70_reset_and_hazards.md R680, R681, U68). PF3 to PF0 are the same pins, and what they read as afterwards is what the event
pfInput says, before the release or after it (10_state.md R76; DESIGN CHOICE, notes/assumptions/26.md). -/
def State.resetReleaseEvent (s : State) (pins : BitVec 4) : Result :=
  if s.core = .inReset then
    match bootOf s.cfg.member pins with
    | some (b, _) => .next ({ s with pins := pins }.startBoot b)
    | none => .refused .modePinsNotDescribed
  else .next s

/-! ### The event at an instruction boundary (61_peripherals.md R580) -/

/-- What one event does; `go` is the core's own step, and the events that fall into the core's turn are done after it: these
are handled by the step. -/
def State.event (s : State) (e : Event) : Result :=
  match e with
  | .go => .next s
  | .irqPin k high => .next (s.irqPinEvent k high)
  | .pwdPin high => .next (s.pwdPinEvent high)
  | .fiSample b => .next { s with flags := { s.flags with fi := b } }
  | .pfInput v => .next { s with flags := { s.flags with pfIn := v } }
  | .sportTx n => s.sportTxEvent n
  | .sportRx n w => s.sportRxEvent n w
  | .sportRxStart n => .next (s.sportRxStartEvent n)
  | .mcSync => .next s.mcSyncEvent
  | .mcSlot w => s.mcSlotEvent w
  | .idmaLatch v => s.idmaEvent (.latch v)
  | .idmaRead => s.idmaEvent .read
  | .idmaWrite v => s.idmaEvent (.write v)
  | .idmaLatchAmid v => s.idmaEvent (.latch v)
  | .busRequest b => .next (s.busRequestEvent b)
  | .busRequestAmid _ => .next (s.busRequestEvent true)
  | .masterPm p off w => .next (s.masterPmEvent p off w)
  | .masterDm p off w => .next (s.masterDmEvent p off w)
  | .masterBm a v => .next (s.masterBmEvent a v)
  | .ioPresent a w => .next (s.ioPresentEvent a w)
  | .resetAssert => .next s.resetAssertEvent
  | .resetRelease pins => s.resetReleaseEvent pins

end Sys2Proof.Machine
end

