-- ==== Sys2Proof/Machine/Timing.lean ====
section
/-!
DEFINITION. Which accesses an instruction makes (20_memory.md R125), which of them are external, and what an instruction
costs in cycles (70_reset_and_hazards.md R720 to R722).
-/

namespace Sys2Proof.Machine

/-! ### Accesses (20_memory.md R125) -/

/-- The Program Memory data address of an instruction. -/
def State.pmAccess (s : State) (i : Instr) : Option Addr :=
  match i with
  | .dualRead _ _ pi _ _ _ => some (s.addr true pi)
  | .compDualRead _ _ _ pi _ _ _ => some (s.addr true pi)
  | .loadPm _ k _ => some (s.addr true k)
  | .compLoadPm _ _ _ k _ => some (s.addr true k)
  | .storePm _ k _ => some (s.addr true k)
  | .compStorePm _ _ _ k _ => some (s.addr true k)
  | .shiftLoadPm _ _ _ k _ => some (s.addr true k)
  | .shiftStorePm _ _ _ k _ => some (s.addr true k)
  | _ => none

/-- The Data Memory address of an instruction. -/
def State.dmAccess (s : State) (i : Instr) : Option Addr :=
  match i with
  | .dualRead _ _ _ _ di _ => some (s.addr false di)
  | .compDualRead _ _ _ _ _ di _ => some (s.addr false di)
  | .loadDm g _ k _ => some (s.addr g k)
  | .compLoadDm g _ _ _ k _ => some (s.addr g k)
  | .storeDm g _ k _ => some (s.addr g k)
  | .compStoreDm g _ _ _ k _ => some (s.addr g k)
  | .storeDmImm g _ k _ => some (s.addr g k)
  | .loadReg _ a => some a
  | .storeReg _ a => some a
  | .shiftLoadDm g _ _ _ k _ => some (s.addr g k)
  | .shiftStoreDm g _ _ _ k _ => some (s.addr g k)
  | _ => none

/-- The I/O address of an instruction. -/
def ioAccess (i : Instr) : Option (BitVec 11) :=
  match i with
  | .ioRead a _ => some a
  | .ioWrite a _ => some a
  | _ => none

/-- A location is external. -/
def isExt (l : Option Loc) : Bool :=
  match l with
  | some l => l.ext
  | none => false

/-- The Program Memory data access of an instruction is external (20_memory.md R108, R109). -/
def State.pmExtern (s : State) (i : Instr) : Bool :=
  match s.pmAccess i with
  | some a => isExt (s.pmLoc s.st.pmovlay a)
  | none => false

/-- The Data Memory access of an instruction is external (20_memory.md R112). -/
def State.dmExtern (s : State) (i : Instr) : Bool :=
  match s.dmAccess i with
  | some a => isExt (s.dmLoc s.st.dmovlay a)
  | none => false

/-- The fetch at the PC of a state is external. -/
def State.fetchExtern (s : State) : Bool := isExt (s.pmLoc s.st.pmovlay s.seq.pc)

/-- The instruction to execute is not prefetched and its own fetch is external: after an interrupt entry that found the bus
taken, a reset or a context reset in the no-boot map (70_reset_and_hazards.md R685, R722). -/
def State.ownFetch (s : State) : Bool := s.seq.prefetch.isNone && s.fetchExtern

/-- The fetch of the next instruction, at the PC of `t`, is external and still to be made. -/
def State.fetchLeft (s t : State) : Bool := t.fetchExtern && s.held.fetch.isNone

/-- The Program Memory data access is external and still to be made. -/
def State.pmLeft (s : State) (i : Instr) : Bool := s.pmExtern i && s.held.pm.isNone

/-- The autobuffer transfer at this boundary goes to an external Data Memory page. -/
def State.autoExtern (s : State) : Bool :=
  match s.autobufferAddr with
  | some a => isExt (s.dmLoc s.st.dmovlay a)
  | none => false

/-! ### Wait states and cycles -/

/-- `waits(N)` (20_memory.md R117). -/
def State.waits (s : State) (n : Nat) : Nat :=
  if s.cfg.member.isMN && s.ctl.waitCtl.getLsbD 15 then 2 * n + 1 else n

/-- Wait states of an external Program Memory access: PWAIT (10_state.md R42). -/
def State.pwait (s : State) : Nat := s.waits (field s.ctl.sysCtl 0 3)

/-- Wait states of an external Data Memory access: DWAIT (10_state.md R43). -/
def State.dwait (s : State) : Nat := s.waits (field s.ctl.waitCtl 12 3)

/-- Wait states of an I/O access: IOWAIT0 to IOWAIT3 by the address region (10_state.md R43). -/
def State.iowait (s : State) (a : BitVec 11) : Nat := s.waits (field s.ctl.waitCtl (a.toNat / 512 * 3) 3)

/-- The external accesses that an instruction, executed from `s` with the state `t` after it, still has to make, its own fetch
apart: the next instruction, Program Memory data, and Data Memory data or I/O (70_reset_and_hazards.md R721). -/
def State.extAccesses (s t : State) (i : Instr) : Nat :=
  (s.fetchLeft t).toNat + (s.pmLeft i).toNat + (s.dmExtern i).toNat + (ioAccess i).isSome.toNat

/-- The external accesses still to be made, the instruction's own fetch among them. -/
def State.busAccesses (s t : State) (i : Instr) : Nat := s.ownFetch.toNat + s.extAccesses t i

/-- Whether an instruction, executed from `s` with the state `t` after it, needs the external bus (70_reset_and_hazards.md
R731). -/
def State.needsBus (s t : State) (i : Instr) : Bool := decide (0 < s.busAccesses t i)

/-- The cycles of an instruction: one, an overhead cycle for each external access beyond the first, and the wait states, also
those of its own fetch where it was not prefetched (70_reset_and_hazards.md R720 to R722). -/
def State.cycles (s t : State) (i : Instr) : Nat :=
  let w := (s.ownFetch.toNat + (s.fetchLeft t).toNat + (s.pmLeft i).toNat) * s.pwait + (s.dmExtern i).toNat * s.dwait
  1 + (s.extAccesses t i - 1) + w + ((ioAccess i).map s.iowait).getD 0

/-- The cycles of an autobuffer transfer: one, and the wait states of an external Data Memory page (70_reset_and_hazards.md
R723). -/
def State.autoCost (s : State) : Nat := if s.autoExtern then 1 + s.dwait else 1

/-! ### A grant between two accesses of one instruction (70_reset_and_hazards.md R721, R731) -/

/-- BR is asserted in this instruction, after some of its external accesses and before the last. -/
def State.splits (s t : State) (i : Instr) : Bool := decide (0 < s.amid) && decide (s.amid < s.busAccesses t i)

/-- The next instruction is fetched before the grant. -/
def State.fetchFirst (s t : State) : Bool := s.fetchLeft t && decide (s.ownFetch.toNat < s.amid)

/-- The Program Memory data word is read before the grant. -/
def State.pmFirst (s t : State) (i : Instr) : Bool :=
  s.pmLeft i && decide (s.ownFetch.toNat + (s.fetchLeft t).toNat < s.amid)

/-- An external word as it stands in memory, with its place. -/
def State.heldWord (s : State) (l : Option Loc) : Option (Nat × PmWord) := l.map (fun l => (l.base, memGet24 s.mem l.base))

/-- What the instruction has read when the bus is granted in its middle. -/
def State.heldAt (s t : State) (i : Instr) : Held :=
  { fetch := if s.fetchFirst t then s.heldWord (s.pmLoc t.st.pmovlay t.seq.pc) else s.held.fetch
    pm := if s.pmFirst t i then s.heldWord ((s.pmAccess i).bind (s.pmLoc s.st.pmovlay)) else s.held.pm }

/-- The cycles of the accesses made before the grant. -/
def State.firstCost (s t : State) (i : Instr) : Nat :=
  (s.ownFetch.toNat + (s.fetchFirst t).toNat + (s.pmFirst t i).toNat) * (1 + s.pwait)

/-- Memory as it reads with an external word read earlier. -/
def withHeld (m : Memory) (h : Option (Nat × PmWord)) : Memory :=
  match h with
  | some (a, w) => memSet24 m a w
  | none => m

/-- The state the data accesses of an instruction read from: a Program Memory word read before a grant stands. -/
def State.seenData (s : State) : State := { s with mem := withHeld s.mem s.held.pm }

/-- Memory after an instruction that read from `seenData`; only the two reads of Type 1 are ever split there, and these write
nothing. -/
def State.unseen (s t : State) : State := if s.held.pm.isSome then { t with mem := s.mem } else t

end Sys2Proof.Machine
end

