-- ==== Sys2Proof/Machine/Cycle.lean ====
section
/-!
DEFINITION. What happens at the end of a cycle of the core: the one-cycle latencies of 10_state.md R72, the collisions of
70_reset_and_hazards.md R702 to R705, the timer (60_exceptions.md R560), the companding steps (62_serial_ports.md R593),
the serial clock counters, and the prefetch (10_state.md R71).
-/

namespace Sys2Proof.Machine

/-! ### The delayed pop and the PC stack restrictions -/

/-- The PC at any value. -/
def State.anyPc (s : State) : State := s.setPc (Config.free 14 s.freeCtr .pc 0)

/-- The delayed pop of `reg = TOPPCSTACK` at the end of the instruction `s0` to `s1`; if that instruction itself used the
PC stack, the PC stack, the PC and SSTAT, and at the end of a loop the loop stack, are any value (45_misc.md R462;
70_reset_and_hazards.md R702, R703, U31). -/
def State.delayedPop (s0 s1 : State) : State :=
  if s0.lat.popDue then
    if s1.lat.use.pcStack || s1.lat.use.full then
      let t := s1.anyPcStk.anyPc.anySstat
      if s0.atLoopEnd then t.anyLoopStk.anySstat else t
    else s1.popPc
  else s1

/-- RTS, RTI or POP PC too soon after `TOPPCSTACK = reg`: the PC stack, the PC and SSTAT are any value
(70_reset_and_hazards.md R705, U32). -/
def State.pushThenReturn (s0 s1 : State) : State :=
  if s1.lat.use.retPop && (s0.lat.push1 || (s0.lat.push2 && s0.atLoopEnd)) then s1.anyPcStk.anyPc.anySstat
  else s1

/-! ### IFC, PDFORCE, ICNTL -/

/-- The level of bit `k` of IFC, 0 to 7 (10_state.md R36). -/
def ifcLevel (k : Nat) : Nat := if k = 7 then 9 else k

/-- The latches after a force and clear command on one interrupt: the clear, then the force; level-sensitive inputs are
not affected (60_exceptions.md R526, D33). -/
def State.ifcBit (s : State) (v : Word) (latch : BitVec 10) (k : Nat) : BitVec 10 :=
  if s.isEdge (ifcLevel k) then
    let l := if v.getLsbD k then putBit latch (ifcLevel k) false else latch
    if v.getLsbD (k + 8) then putBit l (ifcLevel k) true else l
  else latch

/-- A due IFC command carried out; a forced timer request needs no synchronisation (60_exceptions.md R526). -/
def State.ifcStep (s : State) : State :=
  let l := [0, 1, 2, 3, 4, 5, 6, 7].foldl (s.ifcBit s.lat.ifcDue) s.irq.latch
  { s with irq := { s.irq with
      latch := l
      timerWait := if s.lat.ifcDue.getLsbD 8 then 0 else s.irq.timerWait } }

/-- A due PDFORCE requests the powerdown interrupt: at the end of the instruction after the write, so that the second boundary
after the write is the first to take it (60_exceptions.md R550). Where a maskable interrupt is entered at the first of these, the
first instruction of its routine is the one that executes meanwhile (DESIGN CHOICE, notes/assumptions/54.md). From then on the
sequence counts as started by PDFORCE, also when the pin has started one already (DESIGN CHOICE, notes/assumptions/38.md). -/
def State.pdStep (s : State) : State :=
  if s.lat.pdDue then { s with irq := { s.irq with latchPwd := true, pdForced := true } } else s

/-- The latches of the inputs whose sensitivity changes may record a spurious request (60_exceptions.md R524, U37). -/
def State.icntlLatch (s : State) (new : BitVec 5) : BitVec 10 :=
  let d := s.lat.icntlEff ^^^ new
  let f : BitVec 10 := Config.free 10 s.freeCtr .intLatch 1
  let b (bit level : Nat) (l : BitVec 10) : BitVec 10 := if d.getLsbD bit && f.getLsbD level then putBit l level true else l
  b 0 1 (b 1 2 (b 2 9 s.irq.latch))

/-- ICNTL as it stood at the start of the instruction becomes the configuration in use (60_exceptions.md R525). -/
def State.icntlStep (s0 s1 : State) : State :=
  { s1 with
    irq := { s1.irq with latch := s1.icntlLatch s0.st.icntl }
    lat := { s1.lat with icntlEff := s0.st.icntl } }

/-! ### Companding (62_serial_ports.md R593) -/

/-- Compression and expansion of one port, each if it is due and the circuit is free for it. -/
def Sport.compandStep (p : Sport) (txFree rxFree : Bool) (open_ : Word) : Sport :=
  let tx := p.compDue && txFree
  let rx := p.expDue && rxFree
  { p with
    tx := if tx then p.compressed open_ else p.tx
    rx := if rx then p.expanded else p.rx
    compDue := (p.compDue && !tx) || p.compNew
    expDue := (p.expDue && !rx) || p.expNew
    compNew := false
    expNew := false
    expBusy := false }

/-- `compand_step()`: SPORT0 has priority, SPORT1 waits a cycle, for a word SPORT0 has received as for a value written to RX0. -/
def State.compandStep (s : State) : State :=
  { s with
    sp0 := s.sp0.compandStep true true (s.freeTx 0)
    sp1 := s.sp1.compandStep (!s.sp0.compDue) (!(s.sp0.expDue || s.sp0.expBusy)) (s.freeTx 1) }

/-! ### The serial clock and frame sync dividers (62_serial_ports.md R583, R585) -/

/-- IRFS: the receive frame sync is internal (10_state.md R45). -/
def Sport.irfs (p : Sport) : Bool := p.ctl.getLsbD 8

/-- One processor cycle of an internally generated clock, `on` saying that it ran at the start of the cycle: a clock period is
2 (SCLKDIV + 1) cycles with the SCLKDIV of its rising edge, a frame sync comes every RFSDIV + 1 periods. A stopped clock keeps
its two counts, and a clock that starts again goes on from them (DESIGN CHOICE, notes/assumptions/37.md). -/
def Sport.tick (p : Sport) (on : Bool) : Sport :=
  if on then
    if p.sclkCnt + 1 < 2 * (p.divCur.toNat + 1) then { p with sclkCnt := p.sclkCnt + 1 }
    else { p with
      sclkCnt := 0
      divCur := p.sclkdiv
      rfsCnt := if p.irfs then (if p.rfsCnt < p.rfsdiv.toNat then p.rfsCnt + 1 else 0) else p.rfsCnt }
  else { p with divCur := p.sclkdiv }

/-- Both serial clocks in the cycle `s0` to `s1`: a clock runs from the cycle after the one that sets ISCLK. -/
def State.serialTick (s0 s1 : State) : State :=
  { s1 with sp0 := s1.sp0.tick s0.sp0.isclk, sp1 := s1.sp1.tick s0.sp1.isclk }

/-! ### The timer (60_exceptions.md R560) -/

/-- A timer request: latched, and to be synchronised for two cycles; one more while it is latched is lost (60_exceptions.md R545,
R561; notes/assumptions/50.md). -/
def State.timerRequest (s : State) : State :=
  if s.irq.latch.getLsbD 0 then s else { s with irq := { s.irq with latch := putBit s.irq.latch 0 true, timerWait := 2 } }

/-- A cycle of the synchronisation of a timer request (60_exceptions.md R545). -/
def State.timerSync (s : State) : State := { s with irq := { s.irq with timerWait := s.irq.timerWait - 1 } }

/-- `timer_tick()` of a cycle that began with `old` in TCOUNT; a program write to TCOUNT in the same cycle wins (D23). -/
def State.timerTick (s : State) (old : Word) : State :=
  if s.timer.tscale ≤ s.timer.tps then
    let count := if s.lat.tcountSet then s.timer.tcount else if old = 0 then s.timer.tperiod else old - 1
    let t := { s with timer := { s.timer with tps := 0, tcount := count } }
    if old = 0 then t.timerRequest else t
  else { s with timer := { s.timer with tps := s.timer.tps + 1 } }

/-- The timer in the cycle `s0` to `s1`: it ticks if it was enabled at the start, and the prescale count restarts when the
enable goes from 0 to 1 (60_exceptions.md R560, D23). -/
def State.timerStep (s0 s1 : State) : State :=
  let t := if s0.timerOn then s1.timerTick s0.timer.tcount else s1
  if !s0.timerOn && s1.timerOn then { t with timer := { t.timer with tps := 0 } } else t

/-! ### The end of a cycle -/

/-- The latency buffers move on by one cycle (10_state.md R72). -/
def Lat.shift (l : Lat) : Lat :=
  { l with
    imaskHold := l.imaskNew, imaskNew := false
    ifcDue := l.ifcNew, ifcNew := 0
    popDue := l.popNew, popNew := false
    pdDue := l.pdNew, pdNew := false
    push2 := l.push1, push1 := l.pushNew, pushNew := false
    tcountSet := false
    use := .none }

/-- The BDMA byte accesses of `n` cycles (61_peripherals.md R617). None is made while the bus is granted; while a bus request waits
the byte in progress is finished and no other begun, and the bus is granted at its end (70_reset_and_hazards.md R731 and its
(d), (e)). The cycles of the instruction that writes BWCOUNT count already, for the first word (DESIGN CHOICE,
notes/assumptions/36.md). -/
def State.bdmaTick (s : State) (n : Nat) : State :=
  let k := if s.br then min n (s.byteLeft 0) else n
  { s with
    bdma := if s.bdma.active && !s.bg then { s.bdma with wait := s.bdma.wait - k } else s.bdma
    bg := s.bg || (s.br && decide (s.byteLeft 0 ≤ n)) }

/-- One more step and `n` more cycles. -/
def State.count (s : State) (n : Nat) : State := { s with freeCtr := s.freeCtr + 1, clock := s.clock + n }

/-- What runs on in every cycle of the core, a BDMA word's own included: timer, serial clocks (70_reset_and_hazards.md R684, R691)
and companding (DESIGN CHOICE, notes/assumptions/53.md). -/
def State.devices (s0 s1 : State) : State := s0.serialTick (s0.timerStep s1.timerSync).compandStep

/-- The processor cycles of one cycle of the internal clock: n in IDLE (n), where everything internal is n times slower, else one
(70_reset_and_hazards.md R690, D22). -/
def State.period (s : State) : Nat :=
  match s.core with
  | .idle n => n
  | _ => 1

/-- A cycle of the core that began in `s0` and left `s1`, `n` cycles of the internal clock long, with the BDMA byte accesses of
these. -/
def State.deviceCycle (s0 s1 : State) (n : Nat) : State := ((s0.devices s1).bdmaTick n).count (n * s0.period)

/-- The latency buffers moved on. -/
def State.shiftLat (s : State) : State := { s with lat := s.lat.shift }

/-- The end of an instruction's cycle that began in `s0` and left `s1`; `n` is its cost. -/
def State.endCycle (s0 s1 : State) (n : Nat) : State :=
  (s0.deviceCycle (s0.icntlStep s1.ifcStep.pdStep) n).shiftLat

/-- The state the fetch of the next instruction reads from: memory as it was at the start of the instruction, or, where the
bus was granted after that fetch, as it was then (20_memory.md R133, D4; 70_reset_and_hazards.md R721). -/
def State.seenFetch (s : State) : State := { s with mem := withHeld s.mem s.held.fetch }

/-- The fetch of the next instruction, overlapping this one: from memory as it was at the start, through the overlay page
of the end (10_state.md R71; 20_memory.md R133, D4). -/
def State.prefetchNext (s0 s1 : State) : State :=
  { s1 with seq := { s1.seq with prefetch := s0.seenFetch.fetchAt s1.st.pmovlay s1.seq.pc } }

/-- The end of the instruction `i` that began in `s0` and left `s1`. -/
def State.finish (s0 s1 : State) (i : Instr) : State :=
  let t := s0.pushThenReturn (s0.delayedPop s1)
  { s0.prefetchNext (s0.endCycle t (s0.cycles t i)) with stalled := false, held := .none }

/-- A cycle in which the core executes nothing: idle, held for a boot, or halted for a bus grant. The one-cycle latencies
are counted in instructions and do not move (70_reset_and_hazards.md R690, R691), but the companding step, which the port's circuit
does, is done in such a cycle too (DESIGN CHOICE, notes/assumptions/53.md; 62_serial_ports.md R593; 61_peripherals.md R580). -/
def State.waitCycle (s : State) (n : Nat) : State := s.deviceCycle s n

/-- A cycle of the idle core between two boundaries. A PDFORCE that an autobuffer transfer stored is recognised in it, so that the
second boundary after the store takes the powerdown interrupt (60_exceptions.md R541, R550; notes/assumptions/54.md). -/
def State.idleCycle (s : State) : State :=
  let t := s.pdStep
  { t with lat := { t.lat with pdDue := t.lat.pdNew, pdNew := false } }.waitCycle 1

/-- The bus is granted in the middle of the instruction `i` at the PC, after the accesses that `amid` says and the BDMA byte
access in progress then: they are kept, and the instruction is stopped (70_reset_and_hazards.md R731). -/
def State.grantAmid (s t : State) (i : Instr) (w : PmWord) : State :=
  let n := s.firstCost t i
  let u := s.waitCycle (n + s.byteLeft n)
  { u with
    seq := { u.seq with prefetch := some w }
    held := s.heldAt t i
    br := true
    bg := true
    stalled := true
    amid := 0 }

end Sys2Proof.Machine
end

