-- ==== Sys2Proof/Machine/Dispatch.lean ====
section
/-!
DEFINITION. The meaning of every instruction: one arm per constructor of Instr, in the opcode table's order.
-/

namespace Sys2Proof.Machine

def exec (i : Instr) (s : State) : Host.Outcome State Fault Refusal :=
  match i with
  | .aluPassZero z x c => Sys2Proof.Machine.execAluPassZero z x c s
  | .aluPassY z y x c => Sys2Proof.Machine.execAluPassY z y x c s
  | .aluPassOne z x c => Sys2Proof.Machine.execAluPassOne z x c s
  | .aluIncY z y x c => Sys2Proof.Machine.execAluIncY z y x c s
  | .aluXAddC z x c => Sys2Proof.Machine.execAluXAddC z x c s
  | .aluAddC z y x c => Sys2Proof.Machine.execAluAddC z y x c s
  | .aluPassX z x c => Sys2Proof.Machine.execAluPassX z x c s
  | .aluAdd z y x c => Sys2Proof.Machine.execAluAdd z y x c s
  | .aluNotZero z x c => Sys2Proof.Machine.execAluNotZero z x c s
  | .aluNotY z y x c => Sys2Proof.Machine.execAluNotY z y x c s
  | .aluNegY z y x c => Sys2Proof.Machine.execAluNegY z y x c s
  | .aluXSubBorrow z x c => Sys2Proof.Machine.execAluXSubBorrow z x c s
  | .aluSubBorrow z y x c => Sys2Proof.Machine.execAluSubBorrow z y x c s
  | .aluSub z y x c => Sys2Proof.Machine.execAluSub z y x c s
  | .aluPassNegOne z x c => Sys2Proof.Machine.execAluPassNegOne z x c s
  | .aluDecY z y x c => Sys2Proof.Machine.execAluDecY z y x c s
  | .aluNegX z x c => Sys2Proof.Machine.execAluNegX z x c s
  | .aluRsub z y x c => Sys2Proof.Machine.execAluRsub z y x c s
  | .aluNegXBorrow z x c => Sys2Proof.Machine.execAluNegXBorrow z x c s
  | .aluRsubBorrow z y x c => Sys2Proof.Machine.execAluRsubBorrow z y x c s
  | .aluNotX z y x c => Sys2Proof.Machine.execAluNotX z y x c s
  | .aluAnd z y x c => Sys2Proof.Machine.execAluAnd z y x c s
  | .aluOr z y x c => Sys2Proof.Machine.execAluOr z y x c s
  | .aluXor z y x c => Sys2Proof.Machine.execAluXor z y x c s
  | .aluAbs z y x c => Sys2Proof.Machine.execAluAbs z y x c s
  | .aluPassConst z k x c => Sys2Proof.Machine.execAluPassConst z k x c s
  | .aluPassConstInc z k x c => Sys2Proof.Machine.execAluPassConstInc z k x c s
  | .aluPassConstDec z k x c => Sys2Proof.Machine.execAluPassConstDec z k x c s
  | .aluAddConstC z k x c => Sys2Proof.Machine.execAluAddConstC z k x c s
  | .aluAddConst z k x c => Sys2Proof.Machine.execAluAddConst z k x c s
  | .aluSubConstBorrow z k x c => Sys2Proof.Machine.execAluSubConstBorrow z k x c s
  | .aluSubConst z k x c => Sys2Proof.Machine.execAluSubConst z k x c s
  | .aluRsubConst z k x c => Sys2Proof.Machine.execAluRsubConst z k x c s
  | .aluRsubConstBorrow z k x c => Sys2Proof.Machine.execAluRsubConstBorrow z k x c s
  | .aluAndConst z k x c => Sys2Proof.Machine.execAluAndConst z k x c s
  | .aluOrConst z k x c => Sys2Proof.Machine.execAluOrConst z k x c s
  | .aluXorConst z k x c => Sys2Proof.Machine.execAluXorConst z k x c s
  | .aluNotConst z k x c => Sys2Proof.Machine.execAluNotConst z k x c s
  | .aluNegConst z k x c => Sys2Proof.Machine.execAluNegConst z k x c s
  | .macSqRnd z x c => Sys2Proof.Machine.execMacSqRnd z x c s
  | .macMulRnd z y x c => Sys2Proof.Machine.execMacMulRnd z y x c s
  | .macAddSqRnd z x c => Sys2Proof.Machine.execMacAddSqRnd z x c s
  | .macRnd z x c => Sys2Proof.Machine.execMacRnd z x c s
  | .macAddRnd z y x c => Sys2Proof.Machine.execMacAddRnd z y x c s
  | .macSubSqRnd z x c => Sys2Proof.Machine.execMacSubSqRnd z x c s
  | .macSubRnd z y x c => Sys2Proof.Machine.execMacSubRnd z y x c s
  | .macSqSS z x c => Sys2Proof.Machine.execMacSqSS z x c s
  | .macZero z x c => Sys2Proof.Machine.execMacZero z x c s
  | .macMulSS z y x c => Sys2Proof.Machine.execMacMulSS z y x c s
  | .macMulSU z y x c => Sys2Proof.Machine.execMacMulSU z y x c s
  | .macMulUS z y x c => Sys2Proof.Machine.execMacMulUS z y x c s
  | .macSqUU z x c => Sys2Proof.Machine.execMacSqUU z x c s
  | .macMulUU z y x c => Sys2Proof.Machine.execMacMulUU z y x c s
  | .macAddSqSS z x c => Sys2Proof.Machine.execMacAddSqSS z x c s
  | .macCopy z x c => Sys2Proof.Machine.execMacCopy z x c s
  | .macAddSS z y x c => Sys2Proof.Machine.execMacAddSS z y x c s
  | .macAddSU z y x c => Sys2Proof.Machine.execMacAddSU z y x c s
  | .macAddUS z y x c => Sys2Proof.Machine.execMacAddUS z y x c s
  | .macAddSqUU z x c => Sys2Proof.Machine.execMacAddSqUU z x c s
  | .macAddUU z y x c => Sys2Proof.Machine.execMacAddUU z y x c s
  | .macSubSqSS z x c => Sys2Proof.Machine.execMacSubSqSS z x c s
  | .macSubSS z y x c => Sys2Proof.Machine.execMacSubSS z y x c s
  | .macSubSU z y x c => Sys2Proof.Machine.execMacSubSU z y x c s
  | .macSubUS z y x c => Sys2Proof.Machine.execMacSubUS z y x c s
  | .macSubSqUU z x c => Sys2Proof.Machine.execMacSubSqUU z x c s
  | .macSubUU z y x c => Sys2Proof.Machine.execMacSubUU z y x c s
  | .condNop c => Sys2Proof.Machine.execCondNop c s
  | .aluNone fn y x => Sys2Proof.Machine.execAluNone fn y x s
  | .moveDreg dd sd => Sys2Proof.Machine.execMoveDreg dd sd s
  | .aluMove z fn y x dd sd => Sys2Proof.Machine.execAluMove z fn y x dd sd s
  | .macMove z fn y x dd sd => Sys2Proof.Machine.execMacMove z fn y x dd sd s
  | .dualRead pd dd pi pm di dm => Sys2Proof.Machine.execDualRead pd dd pi pm di dm s
  | .compDualRead pd dd cp pi pm di dm => Sys2Proof.Machine.execCompDualRead pd dd cp pi pm di dm s
  | .loadDm g d k m => Sys2Proof.Machine.execLoadDm g d k m s
  | .compLoadDm g z cp d k m => Sys2Proof.Machine.execCompLoadDm g z cp d k m s
  | .storeDm g d k m => Sys2Proof.Machine.execStoreDm g d k m s
  | .compStoreDm g z cp d k m => Sys2Proof.Machine.execCompStoreDm g z cp d k m s
  | .loadPm d k m => Sys2Proof.Machine.execLoadPm d k m s
  | .compLoadPm z cp d k m => Sys2Proof.Machine.execCompLoadPm z cp d k m s
  | .storePm d k m => Sys2Proof.Machine.execStorePm d k m s
  | .compStorePm z cp d k m => Sys2Proof.Machine.execCompStorePm z cp d k m s
  | .storeDmImm g data k m => Sys2Proof.Machine.execStoreDmImm g data k m s
  | .loadReg r addr => Sys2Proof.Machine.execLoadReg r addr s
  | .storeReg r addr => Sys2Proof.Machine.execStoreReg r addr s
  | .loadDregImm data d => Sys2Proof.Machine.execLoadDregImm data d s
  | .loadPmovlay data => Sys2Proof.Machine.execLoadPmovlay data s
  | .loadDmovlay data => Sys2Proof.Machine.execLoadDmovlay data s
  | .loadRegImm r data => Sys2Proof.Machine.execLoadRegImm r data s
  | .jump addr c => Sys2Proof.Machine.execJump addr c s
  | .call addr c => Sys2Proof.Machine.execCall addr c s
  | .doUntil addr t => Sys2Proof.Machine.execDoUntil addr t s
  | .shiftLoadDm g fn x d k m => Sys2Proof.Machine.execShiftLoadDm g fn x d k m s
  | .shiftStoreDm g fn x d k m => Sys2Proof.Machine.execShiftStoreDm g fn x d k m s
  | .shiftLoadPm fn x d k m => Sys2Proof.Machine.execShiftLoadPm fn x d k m s
  | .shiftStorePm fn x d k m => Sys2Proof.Machine.execShiftStorePm fn x d k m s
  | .shiftMove fn x dd sd => Sys2Proof.Machine.execShiftMove fn x dd sd s
  | .lshiftImmHi x e => Sys2Proof.Machine.execLshiftImmHi x e s
  | .lshiftImmHiOr x e => Sys2Proof.Machine.execLshiftImmHiOr x e s
  | .lshiftImmLo x e => Sys2Proof.Machine.execLshiftImmLo x e s
  | .lshiftImmLoOr x e => Sys2Proof.Machine.execLshiftImmLoOr x e s
  | .ashiftImmHi x e => Sys2Proof.Machine.execAshiftImmHi x e s
  | .ashiftImmHiOr x e => Sys2Proof.Machine.execAshiftImmHiOr x e s
  | .ashiftImmLo x e => Sys2Proof.Machine.execAshiftImmLo x e s
  | .ashiftImmLoOr x e => Sys2Proof.Machine.execAshiftImmLoOr x e s
  | .lshiftHi x c => Sys2Proof.Machine.execLshiftHi x c s
  | .lshiftHiOr x c => Sys2Proof.Machine.execLshiftHiOr x c s
  | .lshiftLo x c => Sys2Proof.Machine.execLshiftLo x c s
  | .lshiftLoOr x c => Sys2Proof.Machine.execLshiftLoOr x c s
  | .ashiftHi x c => Sys2Proof.Machine.execAshiftHi x c s
  | .ashiftHiOr x c => Sys2Proof.Machine.execAshiftHiOr x c s
  | .ashiftLo x c => Sys2Proof.Machine.execAshiftLo x c s
  | .ashiftLoOr x c => Sys2Proof.Machine.execAshiftLoOr x c s
  | .normHi x c => Sys2Proof.Machine.execNormHi x c s
  | .normHiOr x c => Sys2Proof.Machine.execNormHiOr x c s
  | .normLo x c => Sys2Proof.Machine.execNormLo x c s
  | .normLoOr x c => Sys2Proof.Machine.execNormLoOr x c s
  | .expHi x c => Sys2Proof.Machine.execExpHi x c s
  | .expHix x c => Sys2Proof.Machine.execExpHix x c s
  | .expLo x c => Sys2Proof.Machine.execExpLo x c s
  | .expAdj x c => Sys2Proof.Machine.execExpAdj x c s
  | .pushTop r => Sys2Proof.Machine.execPushTop r s
  | .popTop r => Sys2Proof.Machine.execPopTop r s
  | .moveReg dst src => Sys2Proof.Machine.execMoveReg dst src s
  | .modeControl tim mac sat ovl rev sec go => Sys2Proof.Machine.execModeControl tim mac sat ovl rev sec go s
  | .jumpInd k c => Sys2Proof.Machine.execJumpInd k c s
  | .callInd k c => Sys2Proof.Machine.execCallInd k c s
  | .rts c => Sys2Proof.Machine.execRts c s
  | .rti c => Sys2Proof.Machine.execRti c s
  | .modify g k m => Sys2Proof.Machine.execModify g k m s
  | .divq x => Sys2Proof.Machine.execDivq x s
  | .divs y x => Sys2Proof.Machine.execDivs y x s
  | .satMr => Sys2Proof.Machine.execSatMr s
  | .enaInts => Sys2Proof.Machine.execEnaInts s
  | .disInts => Sys2Proof.Machine.execDisInts s
  | .stackControl iq pp lp cp spp => Sys2Proof.Machine.execStackControl iq pp lp cp spp s
  | .jumpFlagIn addr fic => Sys2Proof.Machine.execJumpFlagIn addr fic s
  | .callFlagIn addr fic => Sys2Proof.Machine.execCallFlagIn addr fic s
  | .flagOut f2 f1 f0 fo c => Sys2Proof.Machine.execFlagOut f2 f1 f0 fo c s
  | .idle => Sys2Proof.Machine.execIdle s
  | .idleSlow n => Sys2Proof.Machine.execIdleSlow n s
  | .ioRead addr d => Sys2Proof.Machine.execIoRead addr d s
  | .ioWrite addr d => Sys2Proof.Machine.execIoWrite addr d s
  | .nop => Sys2Proof.Machine.execNop s
  | .type22 low => Sys2Proof.Machine.execType22 low s

end Sys2Proof.Machine
end

