-- ==== Sys2Proof/Machine/Run.lean ====
section
/-!
DEFINITION. What one step is made of: fetching, executing an instruction, the priority chain at an instruction boundary,
and the core's turn in each of its states (20_memory.md R131, R139; 44_program_flow.md R400; 70_reset_and_hazards.md R690).
-/

namespace Sys2Proof.Machine

/-- The word the core executes next: the prefetched one, else what a fetch at the PC gets (10_state.md R71). -/
def State.fetch (s : State) : Option PmWord :=
  match s.seq.prefetch with
  | some w => some w
  | none => s.fetchAt s.st.pmovlay s.seq.pc

/-- The core is halted for a bus grant at this boundary: without Go mode, or with GO_MODE_BDMA_HALTS_CORE while a BDMA
transfer wants the bus (70_reset_and_hazards.md R731). -/
def State.busHalts (s : State) : Bool := s.bg && (!s.goMode || (s.cfg.goModeBdmaHalts && s.bdma.active))

/-- A cycle in which the instruction at the PC is stopped until the bus is free (70_reset_and_hazards.md R731). -/
def State.stall (s : State) : State := { s.waitCycle 1 with stalled := true }

/-- The instruction `i`, of the word `w`: its own effect, then the end of its cycle. In Go mode, with the bus granted, an
instruction that needs the bus is stopped until the bus is free, and so it is while the grant waits for a BDMA byte access; a bus
request in its middle stops it between two of its external accesses (70_reset_and_hazards.md R731). -/
def State.execInstr (s : State) (w : PmWord) (i : Instr) : Result :=
  match exec i s.seenData with
  | .next u =>
    let t := s.unseen u
    if s.busTaken && s.needsBus t i then .next s.stall
    else if s.splits t i then .next (s.grantAmid t i w)
    else .next (s.finish t i)
  | .fault f => .fault f
  | .refused r => .refused r

/-- The next instruction of the program: fetched, where the bus is free for that, decoded, executed (44_program_flow.md R400;
70_reset_and_hazards.md R731). -/
def State.runInstr (s : State) : Result :=
  if s.busTaken && s.ownFetch then .next s.stall
  else
    match s.fetch with
    | none => .refused .unpopulatedFetch
    | some w =>
      match decode w with
      | .instr i => s.execInstr w i
      | .reserved r => .refused (.reservedWord r)

/-- The cycle of an interrupt entry: the entry, and in the same cycle the fetch of the word at the vector, with its wait states where
it is external (60_exceptions.md R540, R545; 70_reset_and_hazards.md R720, R722). Where that fetch needs a bus that is not free it is
left to the next step (DESIGN CHOICE, notes/assumptions/34.md). -/
def State.enterInterrupt (s : State) (x : Source) : State :=
  let t := s.takeInterrupt x
  if t.busTaken && t.fetchExtern then t.count 1
  else { t with seq := { t.seq with prefetch := t.fetchAt t.st.pmovlay t.seq.pc } }.count (1 + t.fetchExtern.toNat * s.pwait)

/-- The core's own part of a step, after the stolen cycles: an interrupt entry, an instruction, or an idle cycle
(60_exceptions.md R541). -/
def State.coreStep (s : State) : Result :=
  match s.interrupt with
  | some x => .next (s.enterInterrupt x)
  | none =>
    match s.core with
    | .idle _ => .next s.idleCycle
    | _ => s.runInstr

/-- A step that takes `n` processor cycles and in which the core does nothing. -/
def costing (n : Nat) (r : Result) : Result :=
  match r with
  | .next t => .next (t.count n)
  | .fault f => .fault f
  | .refused e => .refused e

/-- One stolen cycle: at the divided clock in IDLE (n) (20_memory.md R138; 70_reset_and_hazards.md R690). -/
def State.stolen (s : State) (r : Result) : Result := costing s.period r

/-- The host access that waited, carried out; it steals a cycle where it reaches internal memory (61_peripherals.md R627, R628,
R632). -/
def State.idmaTurn (s : State) (op : IdmaOp) : Result :=
  costing ((s.idma.steals op).toNat * s.period) ((s.setIdma { s.idma with pend := none }).idmaStep op)

/-- A BDMA word is ready: its byte accesses are done and the bus is free (61_peripherals.md R612, R617). -/
def State.bdmaReady (s : State) : Bool := s.bdma.active && s.bdma.wait == 0 && !s.bg

/-- An instruction boundary of the running or idle core, by the priority chain of 20_memory.md R139: IDMA, BDMA,
autobuffer, interrupt, instruction. An autobuffer transfer to an external page waits while the bus is granted, and the core with
it (20_memory.md R138; 70_reset_and_hazards.md R731; notes/assumptions/35.md). -/
def State.boundary (s : State) : Result :=
  match s.idma.pend with
  | some op => s.idmaTurn op
  | none =>
    if s.bdmaReady then s.stolen s.bdmaWord
    else
      match s.autobuffer with
      | some t => if s.busTaken && s.autoExtern then .next (s.waitCycle 1) else .next (t.count (s.autoCost * s.period))
      | none => s.coreStep

/-- The cycle of a BDMA word of a held core: the devices run on in it (61_peripherals.md R617; 70_reset_and_hazards.md R684). -/
def State.heldWordCycle (s : State) : Result :=
  match s.bdmaWord with
  | .next t => .next ((s.devices t).count 1)
  | .fault f => .fault f
  | .refused e => .refused e

/-- A cycle of the core held for a BDMA boot or reboot (70_reset_and_hazards.md R684, R690). A host access that has waited since
before the transfer began waits on and is made after the context reset (DESIGN CHOICE, notes/assumptions/55.md; 61_peripherals.md
R632). -/
def State.heldBdma (s : State) : Result := if s.bdmaReady then s.heldWordCycle else .next (s.waitCycle 1)

/-- A cycle of the core held for an IDMA boot (70_reset_and_hazards.md R683, R690). -/
def State.heldIdma (s : State) : Result :=
  match s.idma.pend with
  | some op => s.idmaTurn op
  | none => .next (s.waitCycle 1)

/-- The running or idle core: halted for the bus, in the middle of a stopped instruction, or at a boundary. -/
def State.active (s : State) : Result :=
  if s.busHalts || (s.stalled && s.bg) then .next (s.waitCycle 1)
  else if s.stalled then s.runInstr
  else s.boundary

/-- The core's turn, by its state (70_reset_and_hazards.md R690). -/
def State.turn (s : State) : Result :=
  match s.core with
  | .running => s.active
  | .idle _ => s.active
  | .heldBdma => if s.bg then .next (s.waitCycle 1) else s.heldBdma
  | .heldIdma => if s.busHalts then .next (s.waitCycle 1) else s.heldIdma
  | .powerDown => .next (s.count 0)
  | .inReset => .next (s.count 0)

/-- An event's answer: it takes no cycle of the core, but is a step of the run. -/
def eventDone (r : Result) : Result := costing 0 r

/-- The core's turn with BR asserted in it: where no instruction was stopped between two accesses, the bus is granted after the
turn (70_reset_and_hazards.md R731). -/
def State.turnBusRequest (s : State) (k : Nat) : Result :=
  match { s with amid := k + 1 }.turn with
  | .next t => .next (if t.amid = 0 then t else { t with amid := 0 }.busRequestEvent true)
  | .fault f => .fault f
  | .refused e => .refused e

/-- The core's turn with a host latch in it: in the cycle of a core write of an IDMA register the outcome is open, else the
latch comes after the turn (10_state.md R55, U5). -/
def State.turnIdmaLatch (s : State) (v : Word) : Result :=
  match (s.setIdma { s.idma with coreWrote := false }).turn with
  | .next t => if t.idma.coreWrote && t.hasIdmaPort then .next t.idmaContention else t.idmaEvent (.latch v)
  | .fault f => .fault f
  | .refused e => .refused e

/-- A word placed in Program Memory where an address resolves with a page; nothing where there is no memory. -/
def State.placeWord (s : State) (page : BitVec 4) (a : Addr) (w : PmWord) : Memory :=
  match s.pmLoc page a with
  | some l => memSet24 s.mem l.base w
  | none => s.mem

end Sys2Proof.Machine
end

