-- ==== Sys2Proof/Machine/Step.lean ====
section
/-!
DEFINITION. The step of the machine: one event of the outside world, or the core's turn, which is one stolen cycle, one
interrupt entry, one instruction or one waiting cycle (20_memory.md R131, R139; 44_program_flow.md R400).
-/

namespace Sys2Proof.Machine

/-- One step: the next event of the outside world, or the core's turn, alone or with an event that falls into it. -/
def step (s : State) : Host.Outcome State Fault Refusal :=
  match s.env with
  | [] => s.turn
  | .go :: rest => { s with env := rest }.turn
  | .busRequestAmid k :: rest => { s with env := rest }.turnBusRequest k
  | .idmaLatchAmid v :: rest => { s with env := rest }.turnIdmaLatch v
  | e :: rest => eventDone ({ s with env := rest }.event e)

/-- `s` with the instruction word `w` where the step fetches its next instruction, the core running, and nothing due
before it: no event, no transfer, no interrupt at this boundary (notes/assumptions/4.md). -/
def State.withFetchWord (s : State) (nbits w : Nat) : State :=
  { s with
    mem := s.placeWord s.st.pmovlay s.seq.pc (BitVec.ofNat 24 (w % 2 ^ nbits))
    seq := { s.seq with prefetch := none }
    lat := { s.lat with imaskHold := true }
    sp0 := { s.sp0 with txReq := false, rxReq := false }
    sp1 := { s.sp1 with txReq := false, rxReq := false }
    bdma := { s.bdma with active := false }
    idma := { s.idma with pend := none }
    core := .running
    bg := false
    stalled := false
    held := .none
    amid := 0
    env := [] }

end Sys2Proof.Machine
end

