-- ==== Sys2Proof/Safety.lean ====
section
/-!
DEFINITION. Safety: what a safe run is, the data invariant every step keeps, and the terms claims are written in: that an
instruction completes, and what it leaves unchanged.
-/

namespace Sys2Proof.Machine

/-! ### Safe runs -/

/-- A stack holds as many entries as its excess says, never more than its depth (10_state.md R64, R66). -/
def Stack.ok {α : Type} (k : Stack α) (depth : Nat) : Bool := k.entries.length == min k.n.toNat depth

/-- The data invariant: memory in its canonical form, and the four stacks consistent (10_state.md R60 to R66). -/
def State.ok (s : State) : Bool :=
  Memory.wf s.mem && s.seq.pcStk.ok pcDepth && s.seq.cntStk.ok cntDepth && s.seq.loopStk.ok loopDepth &&
    s.seq.stsStk.ok s.cfg.stsDepth

/-- A run of `k` steps from `s` is safe: it ends in a state, not in a refusal. The machine has no faults (60_exceptions.md
R520). -/
def SafeRun (k : Nat) (s : State) : Prop := ∃ t, Sys2Proof.core.run k s = .next t

/-! ### Completion -/

/-- The instruction runs: `exec` answers a next state, and `P` holds of it. -/
def Completes (i : Instr) (s : State) (P : State → Prop) : Prop := ∃ t, exec i s = .next t ∧ P t

/-! ### Frames -/

/-- Every byte of memory reads as before. -/
def SameMem (s t : State) : Prop := ∀ a, memGet t.mem a = memGet s.mem a

/-- Every byte outside the `n` bytes from `lo` reads as before. -/
def SameMemBut (s t : State) (lo n : Nat) : Prop := ∀ a, a < lo ∨ lo + n ≤ a → memGet t.mem a = memGet s.mem a

/-- The interrupt requests, the timer, the control registers, the serial ports, BDMA, IDMA, the flags, the pins and the
core state are as before. -/
structure SameDevices (s t : State) : Prop where
  cfg : t.cfg = s.cfg
  irq : t.irq = s.irq
  timer : t.timer = s.timer
  ctl : t.ctl = s.ctl
  sp0 : t.sp0 = s.sp0
  sp1 : t.sp1 = s.sp1
  mc : t.mc = s.mc
  bdma : t.bdma = s.bdma
  idma : t.idma = s.idma
  flags : t.flags = s.flags
  core : t.core = s.core
  pins : t.pins = s.pins
  br : t.br = s.br
  bg : t.bg = s.bg
  stalled : t.stalled = s.stalled
  held : t.held = s.held
  amid : t.amid = s.amid
  io : t.io = s.io
  env : t.env = s.env
  freeCtr : t.freeCtr = s.freeCtr
  clock : t.clock = s.clock

/-- The program sequencer and the one-cycle actions are as a NOP leaves them: the next address, or the end of a loop
(44_program_flow.md R400, R421). -/
structure SameFlow (s t : State) : Prop where
  seq : t.seq = (s.advance s).seq
  lat : t.lat = (s.advance s).lat

/-- The register bank that is not selected is as before (10_state.md R22). -/
def SameOtherBank (s t : State) : Prop := if s.secReg then t.pri = s.pri else t.sec = s.sec

/-- All but the active bank, ASTAT, memory and the DAG and PX registers is as a NOP leaves it. -/
structure ComputeFrame (s t : State) : Prop where
  devices : SameDevices s t
  flow : SameFlow s t
  other : SameOtherBank s t
  status : t.st = { s.st with astat := t.st.astat }

/-- All but the active bank and ASTAT is as a NOP leaves it. -/
structure RegFrame (s t : State) : Prop extends ComputeFrame s t where
  mem : SameMem s t
  dag : t.dag = s.dag
  px : t.px = s.px

/-- Only the sequencer moved: everything but the PC, the stacks, the counter and the one-cycle actions is as before. -/
def OnlyFlow (s t : State) : Prop := t = { s with seq := t.seq, lat := t.lat }

/-! ### ALU effects -/

/-- The exact value lies outside the signed 16-bit range. -/
def overflows (v : Int) : Bool := decide (v < -32768) || decide (32767 < v)

/-- What AR takes under AR_SAT: full scale when the operation overflows (40_alu.md R264). -/
def saturated (on ovf carry : Bool) (r : Word) : Word := if on && ovf then (if carry then 0x8000 else 0x7FFF) else r

/-- The carry of ASTAT as a number. -/
def State.carryIn (s : State) : Nat := (astatAC s.st.astat).toNat

/-- The borrow of ASTAT as a number: 1 - AC. -/
def State.borrowIn (s : State) : Nat := 1 - s.carryIn

/-- The result of an ALU function with its overflow and carry. -/
structure Exact where
  r : Word
  ovf : Bool
  carry : Bool
  deriving DecidableEq, Repr

/-- The sum of two words and a carry: overflow by the exact signed sum, carry by the exact unsigned sum (40_alu.md R222). -/
def exactSum (a b : Word) (c : Nat) : Exact :=
  { r := a + b + BitVec.ofNat 16 c, ovf := overflows (a.toInt + b.toInt + c), carry := decide (65536 ≤ a.toNat + b.toNat + c) }

/-- The difference of two words and a borrow: the carry is 1 when there is no borrow (40_alu.md R222). -/
def exactDifference (a b : Word) (c : Nat) : Exact :=
  { r := a - b - BitVec.ofNat 16 c, ovf := overflows (a.toInt - b.toInt - c), carry := decide (b.toNat + c ≤ a.toNat) }

/-- A logical function or PASS: overflow and carry are 0 (40_alu.md R225). -/
def exactLogic (r : Word) : Exact := { r := r, ovf := false, carry := false }

/-- ABS: the most negative word overflows (40_alu.md R248). -/
def exactAbs (x : Word) : Exact :=
  { r := if x.toInt < 0 then 0 - x else x, ovf := decide (x.toInt = -32768), carry := false }

/-- The function of an ALU code by exact arithmetic; `c` is the carry (40_alu.md R222 to R254). -/
def exactAlu (fn : AluFn) (x y : Word) (c : Nat) : Exact :=
  match fn with
  | .passY => exactLogic y
  | .incY => exactSum y 0 1
  | .addC => exactSum x y c
  | .add => exactSum x y 0
  | .notY => exactLogic (~~~y)
  | .negY => exactDifference 0 y 0
  | .subBorrow => exactDifference x y (1 - c)
  | .sub => exactDifference x y 0
  | .decY => exactDifference y 1 0
  | .rsub => exactDifference y x 0
  | .rsubBorrow => exactDifference y x (1 - c)
  | .notX => exactLogic (~~~x)
  | .and => exactLogic (x &&& y)
  | .or => exactLogic (x ||| y)
  | .xor => exactLogic (x ^^^ y)
  | .abs => exactAbs x

/-- The bits of ASTAT from `lo` to 7 are as before. -/
def SameAstatFrom (s t : State) (lo : Nat) : Prop := ∀ k, lo ≤ k → t.st.astat.getLsbD k = s.st.astat.getLsbD k

/-- AZ, AN, AV and AC after a function; `sat` says that AR_SAT is on and bears on it (40_alu.md R225, R262, R263, R264). -/
structure AluFlags (s t : State) (sat : Bool) (e : Exact) : Prop where
  az : astatAZ t.st.astat = (saturated (s.cfg.aluSatFlags && sat) e.ovf e.carry e.r == 0)
  an : astatAN t.st.astat = (saturated (s.cfg.aluSatFlags && sat) e.ovf e.carry e.r).getLsbD 15
  av : astatAV t.st.astat = (e.ovf || (s.avLatch && astatAV s.st.astat))
  ac : astatAC t.st.astat = e.carry

/-- The active bank after an ALU function: AR saturates, AF does not, no other register changes (40_alu.md R225). -/
def aluBank (s : State) (z : Dest) (e : Exact) : Bank :=
  match z with
  | .result => { s.bank with ar := saturated s.arSat e.ovf e.carry e.r }
  | .feedback => { s.bank with af := e.r }

/-- An ALU function other than ABS committed (40_alu.md R225). -/
structure AluDone (s t : State) (z : Dest) (e : Exact) : Prop where
  bank : t.bank = aluBank s z e
  flags : AluFlags s t s.arSat e
  others : SameAstatFrom s t 4

/-- ABS committed: AS takes the sign of the operand (40_alu.md R248). -/
structure AbsDone (s t : State) (z : Dest) (x : Word) : Prop where
  bank : t.bank = aluBank s z (exactAbs x)
  flags : AluFlags s t s.arSat (exactAbs x)
  sign : astatAS t.st.astat = x.getLsbD 15
  others : SameAstatFrom s t 5

/-! ### MAC effects -/

/-- The active bank after a MAC function with the 40-bit result `r`: MR, or MF with bits 31:16 (41_mac.md R284). -/
def macBank (s : State) (z : Dest) (r : BitVec 40) : Bank :=
  match z with
  | .result => { s.bank with mr0 := r.extractLsb' 0 16, mr1 := r.extractLsb' 16 16, mr2 := r.extractLsb' 32 8 }
  | .feedback => { s.bank with mf := r.extractLsb' 16 16 }

/-- A MAC function committed; MV alone of ASTAT changes: it says that the result needs more than 32 bits (41_mac.md R284,
R289). -/
structure MacDone (s t : State) (z : Dest) (r : BitVec 40) : Prop where
  bank : t.bank = macBank s z r
  mv : astatMV t.st.astat = decide (r.toInt < -2147483648 ∨ 2147483647 < r.toInt)
  others : ∀ k, k ≠ 6 → t.st.astat.getLsbD k = s.st.astat.getLsbD k

/-- A product as it is accumulated: doubled in fractional mode (41_mac.md R283). -/
def State.aligned (s : State) (p : Int) : Int := if s.mMode then p else 2 * p

/-- The product alone, added to MR or subtracted from MR, for `acc` 0, 1 or -1 (41_mac.md R284). -/
def State.accumulated (s : State) (acc p : Int) : Int :=
  if acc = 0 then s.aligned p else s.bank.mr.toInt + acc * s.aligned p

/-- An unrounded multiplication of the exact product `p` committed. -/
def MacExact (s t : State) (z : Dest) (acc p : Int) : Prop := MacDone s t z (BitVec.ofInt 40 (s.accumulated acc p))

/-- A rounded multiplication: the result has the low half of the exact value plus one half, and its upper part is the
nearest multiple of 65536, a tie going up when biased and to the even multiple otherwise (41_mac.md R284, R290). -/
def MacRounded (s t : State) (z : Dest) (acc p : Int) : Prop :=
  ∃ r : Int, MacDone s t z (BitVec.ofInt 40 r) ∧
    (r - (s.accumulated acc p + 32768)) % 65536 = 0 ∧
    (r / 65536 * 65536 - s.accumulated acc p).natAbs ≤ 32768 ∧
    (s.accumulated acc p % 65536 = 32768 →
      if s.biasRnd then r = s.accumulated acc p + 32768 else r / 65536 % 2 = 0)

/-- The product of two unsigned words; with MAC_UU_SIGN_EXTENDS_P its 32 bits are taken as signed (41_mac.md R282, D25). -/
def State.unsignedProduct (s : State) (x y : Word) : Int :=
  if s.cfg.macUUSignExt then (BitVec.ofNat 32 (x.toNat * y.toNat)).toInt else (x.toNat * y.toNat : Nat)

/-- A MAC function code committed, by exact arithmetic (30_encoding.md R175; 41_mac.md R282 to R290). -/
def MacFnDone (s t : State) (z : Dest) (fn : MacFn) (x y : Word) : Prop :=
  let ss := x.toInt * y.toInt
  let su := x.toInt * y.toNat
  let us := x.toNat * y.toInt
  let uu := s.unsignedProduct x y
  match fn with
  | .mulRnd => MacRounded s t z 0 ss
  | .addRnd => MacRounded s t z 1 ss
  | .subRnd => MacRounded s t z (-1) ss
  | .mulSS => MacExact s t z 0 ss
  | .mulSU => MacExact s t z 0 su
  | .mulUS => MacExact s t z 0 us
  | .mulUU => MacExact s t z 0 uu
  | .addSS => MacExact s t z 1 ss
  | .addSU => MacExact s t z 1 su
  | .addUS => MacExact s t z 1 us
  | .addUU => MacExact s t z 1 uu
  | .subSS => MacExact s t z (-1) ss
  | .subSU => MacExact s t z (-1) su
  | .subUS => MacExact s t z (-1) us
  | .subUU => MacExact s t z (-1) uu

/-- The computation of a multifunction word committed, by exact arithmetic. -/
def CompDone (s t : State) (z : Dest) (cp : Comp) : Prop :=
  match cp with
  | .alu .abs _ x => AbsDone s t z (s.bank.aluX x)
  | .alu fn y x => AluDone s t z (exactAlu fn (s.bank.aluX x) (s.bank.aluY y) s.carryIn)
  | .mac fn y x => MacFnDone s t z fn (s.bank.macX x) (s.bank.macY y)

/-! ### Loads of a data register -/

/-- The bank `b` is the bank `u` with the data register `d` loaded with `v`; where `clash` says that the computation beside
it writes `d` too, `d` (and MR2 with MR1) holds any value and the rest is as in `u` (43_move.md R374; 46_multifunction.md R490
(c)). -/
def Loaded (u b : Bank) (clash : Bool) (d : Dreg) (v : Word) : Prop :=
  if clash then
    (∀ e, e ≠ d → (d = .mr1 → e ≠ .mr2) → b.dreg e = u.dreg e) ∧ b.af = u.af ∧ b.mf = u.mf ∧ b.sb = u.sb
  else b = u.setDreg d v

/-! ### Shifter effects -/

/-- Bit `k` of the shifter's output: bit `k - p` of the input placed `p` bits up, zero below it, `ext` above it
(42_shifter.md R321). -/
def shiftedBit (inp : Word) (p : Int) (ext : Bool) (k : Nat) : Bool :=
  if (k : Int) < p then false else if (k : Int) < p + 16 then inp.getLsbD (k - p).toNat else ext

/-- SR takes the input placed `p` bits up, or with `orSr` the OR of that and the old SR; no other register of the bank and
no flag changes (42_shifter.md R321, R323). -/
structure ShiftDone (s t : State) (orSr : Bool) (inp : Word) (p : Int) (ext : Bool) : Prop where
  sr : ∀ k, k < 32 → t.bank.sr.getLsbD k = (shiftedBit inp p ext k || (orSr && s.bank.sr.getLsbD k))
  rest : t.bank = { s.bank with sr0 := t.bank.sr0, sr1 := t.bank.sr1 }
  astat : t.st.astat = s.st.astat

/-- A word has exactly `n` redundant sign bits: as a signed number it fits in `16 - n` bits and in no fewer (42_shifter.md
R324). -/
def RedundantSigns (v : Word) (n : Nat) : Prop :=
  n ≤ 15 ∧ -(2 ^ (15 - n) : Int) ≤ v.toInt ∧ v.toInt < 2 ^ (15 - n) ∧
    (n < 15 → ¬(-(2 ^ (14 - n) : Int) ≤ v.toInt ∧ v.toInt < 2 ^ (14 - n)))

/-- SE and SS take `e` and `ss`; no other register of the bank and no other flag changes (42_shifter.md R330). -/
structure ExpDone (s t : State) (e : Int) (ss : Bool) : Prop where
  bank : t.bank = { s.bank with se := BitVec.ofInt 8 e }
  sign : astatSS t.st.astat = ss
  others : ∀ k, k < 7 → t.st.astat.getLsbD k = s.st.astat.getLsbD k

/-! ### Stores -/

/-- The instruction writes memory when its address names a memory word. -/
def storesMemory : Instr → Bool
  | .storeDm .. | .compStoreDm .. | .storeDmImm .. | .storeReg .. | .shiftStoreDm .. => true
  | .storePm .. | .compStorePm .. | .shiftStorePm .. => true
  | _ => false

/-- A serial port data register. -/
def isSerial : Reg → Bool
  | .rx0 | .tx0 | .rx1 | .tx1 => true
  | _ => false

/-- The instruction reaches a device, a flag pin, I/O space or the core state: a Data Memory store, which may name a
control register, an I/O write, the flag outputs, IDLE, RTI, and a load of a serial port register. -/
def reachesDevices : Instr → Bool
  | .storeDm .. | .compStoreDm .. | .storeDmImm .. | .storeReg .. | .shiftStoreDm .. => true
  | .ioWrite .. | .flagOut .. | .idle | .idleSlow _ | .rti _ => true
  | .loadReg r _ | .loadRegImm r _ | .moveReg r _ | .popTop r => isSerial r
  | _ => false

/-- A register of `State.st` other than ASTAT. -/
def isControl : Reg → Bool
  | .pmovlay | .dmovlay | .mstat | .imask | .icntl => true
  | _ => false

/-- The instruction may write MSTAT, IMASK, ICNTL, an overlay register or the interrupt enable. -/
def writesControl : Instr → Bool
  | .loadReg r _ | .loadRegImm r _ | .moveReg r _ | .popTop r => isControl r
  | .loadPmovlay _ | .loadDmovlay _ | .stackControl .. | .rti _ | .modeControl .. | .enaInts | .disInts => true
  | _ => false

/-- All but the active bank, ASTAT, the DAG registers and what the store reaches is as a NOP leaves it; of the one-cycle actions a
store can note PDFORCE and the write of TCOUNT. -/
structure StoreFrame (s t : State) : Prop where
  seq : t.seq = (s.advance s).seq
  lat : t.lat = { (s.advance s).lat with pdNew := t.lat.pdNew, tcountSet := t.lat.tcountSet }
  other : SameOtherBank s t
  status : t.st = { s.st with astat := t.st.astat }
  px : t.px = s.px

/-- The word `v` stored to Data Memory address `a`: to a control register, to the two bytes of its place, or nowhere where
the member has no memory (20_memory.md R105, R124). A store to 0x3FEF notes PDFORCE, one to 0x3FFC the write of TCOUNT, any other
nothing (60_exceptions.md R550, R560). -/
def StoredDm (s t : State) (a : Addr) (v : Word) : Prop :=
  t.lat.pdNew = (s.lat.pdNew || (decide (a = 0x3FEF) && v.getLsbD 13)) ∧
  t.lat.tcountSet = (s.lat.tcountSet || decide (a = 0x3FFC)) ∧
  if 0x3FE0 ≤ a.toNat then SameMem s t ∧ SameDevices (s.writeMmr (a.toNat - 0x3FE0) v) t
  else SameDevices s t ∧
    match s.dmLoc s.st.dmovlay a with
    | some l => memGet16 t.mem l.base = v ∧ SameMemBut s t l.base 2
    | none => SameMem s t

/-- The word `w` stored to Program Memory address `a`: to the three bytes of its place, to its two upper bytes where only
they are driven, or nowhere where the member has no memory (20_memory.md R105, R118). -/
def StoredPm (s t : State) (a : Addr) (w : PmWord) : Prop :=
  t.lat = (s.advance s).lat ∧ SameDevices s t ∧
    match s.pmLoc s.st.pmovlay a with
    | some l =>
      if l.ext && s.hostMode then memGet16 t.mem l.base = w.extractLsb' 8 16 ∧ SameMemBut s t l.base 2
      else memGet24 t.mem l.base = w ∧ SameMemBut s t l.base 3
    | none => SameMem s t

/-- The condition of a conditional computation: a Type 9 word, a conditional shift, or the flag outputs (30_encoding.md R168,
R169, R181, R188); SAT MR tests MV. -/
def guard : Instr → Option Cond
  | .aluPassZero _ _ c | .aluPassY _ _ _ c | .aluPassOne _ _ c | .aluIncY _ _ _ c | .aluXAddC _ _ c
  | .aluAddC _ _ _ c | .aluPassX _ _ c | .aluAdd _ _ _ c | .aluNotZero _ _ c | .aluNotY _ _ _ c | .aluNegY _ _ _ c
  | .aluXSubBorrow _ _ c | .aluSubBorrow _ _ _ c | .aluSub _ _ _ c | .aluPassNegOne _ _ c | .aluDecY _ _ _ c
  | .aluNegX _ _ c | .aluRsub _ _ _ c | .aluNegXBorrow _ _ c | .aluRsubBorrow _ _ _ c | .aluNotX _ _ _ c
  | .aluAnd _ _ _ c | .aluOr _ _ _ c | .aluXor _ _ _ c | .aluAbs _ _ _ c | .aluPassConst _ _ _ c
  | .aluPassConstInc _ _ _ c | .aluPassConstDec _ _ _ c | .aluAddConstC _ _ _ c | .aluAddConst _ _ _ c
  | .aluSubConstBorrow _ _ _ c | .aluSubConst _ _ _ c | .aluRsubConst _ _ _ c | .aluRsubConstBorrow _ _ _ c
  | .aluAndConst _ _ _ c | .aluOrConst _ _ _ c | .aluXorConst _ _ _ c | .aluNotConst _ _ _ c | .aluNegConst _ _ _ c
  | .macSqRnd _ _ c | .macMulRnd _ _ _ c | .macAddSqRnd _ _ c | .macRnd _ _ c | .macAddRnd _ _ _ c
  | .macSubSqRnd _ _ c | .macSubRnd _ _ _ c | .macSqSS _ _ c | .macZero _ _ c | .macMulSS _ _ _ c
  | .macMulSU _ _ _ c | .macMulUS _ _ _ c | .macSqUU _ _ c | .macMulUU _ _ _ c | .macAddSqSS _ _ c | .macCopy _ _ c
  | .macAddSS _ _ _ c | .macAddSU _ _ _ c | .macAddUS _ _ _ c | .macAddSqUU _ _ c | .macAddUU _ _ _ c
  | .macSubSqSS _ _ c | .macSubSS _ _ _ c | .macSubSU _ _ _ c | .macSubUS _ _ _ c | .macSubSqUU _ _ c
  | .macSubUU _ _ _ c | .condNop c | .lshiftHi _ c | .lshiftHiOr _ c | .lshiftLo _ c | .lshiftLoOr _ c
  | .ashiftHi _ c | .ashiftHiOr _ c | .ashiftLo _ c | .ashiftLoOr _ c | .normHi _ c | .normHiOr _ c | .normLo _ c
  | .normLoOr _ c | .expHi _ c | .expHix _ c | .expLo _ c | .expAdj _ c | .flagOut _ _ _ _ c => some c
  | .satMr => some .mv
  | _ => none

/-! ### The step -/

/-- The next step is the program's next instruction: nothing happens outside, the core runs, and no transfer or interrupt
comes first (20_memory.md R139). -/
structure State.Ready (s : State) : Prop where
  env : s.env = []
  core : s.core = .running
  stalled : s.stalled = false
  bus : s.busHalts = false
  held : s.held = .none
  amid : s.amid = 0
  idma : s.idma.pend = none
  bdma : s.bdmaReady = false
  tx0 : s.sp0.txReq = false
  rx0 : s.sp0.rxReq = false
  tx1 : s.sp1.txReq = false
  rx1 : s.sp1.rxReq = false
  interrupt : s.interrupt = none

end Sys2Proof.Machine
end

