-- ==== Sys2Proof/Certificates/Slice0/Obligations.lean ====
section
/-!
DEFINITION. The statements for the provers. The terms they use are in Safety.lean; each docstring names the rules of the
spec the statement follows.
-/

section

open Sys2Proof Sys2Proof.Machine

/-! ### Instruction words -/

/-- Decoding the word of a well-formed instruction gives the instruction (30_encoding.md R163 to R192). -/
def Obligations.DecodeOfEncode : Prop :=
  ∀ i : Instr, i.wellFormed = true → decode (encode i) = .instr i

/-- A word that decodes to an instruction is that instruction's encoding: every word has one meaning, and reserved words
never fall through to a neighbour (30_encoding.md R161, R192). -/
def Obligations.EncodeOfDecode : Prop :=
  ∀ (w : PmWord) (i : Instr), decode w = .instr i → i.wellFormed = true ∧ encode i = w

/-- Words written out bit by bit from the layouts of 30_encoding.md decode to their instructions. Type 22 is reserved: its
words decode to it, and executing it is refused, which is the stop the spec asks for. TOPPCSTACK, group 3 code 15, has no word
of Types 3 and 7 (95_test_vectors.md Part 4; 30_encoding.md R185, R192 item 1, R182; 70_reset_and_hazards.md R706). -/
def Obligations.DecodedWords : Prop :=
  decode 0b001000100110000000001111 = .instr (.aluAdd .result .y0 .x0 .always) ∧
  decode 0b001000001000000000001111 = .instr (.macMulSS .result .y0 .x0 .always) ∧
  decode 0b000011100010000000001111 = .instr (.ashiftHi .si .always) ∧
  decode 0b010000010010001101000000 = .instr (.loadDregImm 0x1234 .ax0) ∧
  decode 0b011000000000000000000001 = .instr (.loadDm false .ax0 0 1) ∧
  decode 0b111010010000000000000000 = .instr (.compDualRead .my0 .mx0 (.mac .addSS .y0 .x0) 0 0 0 0) ∧
  decode 0b000110000001001000111111 = .instr (.jump 0x0123 .always) ∧
  decode 0b000101000001000001011110 = .instr (.doUntil 0x0105 .ce) ∧
  decode 0b000010100000000000011111 = .instr (.rti .always) ∧
  decode 0b000011010000110011110000 = .instr (.pushTop (.d .ax0)) ∧
  decode 0b000010010000000000010111 = .instr (.modify true 1 3) ∧
  decode 0b000000000000000000000000 = .instr .nop ∧
  (∀ (low : BitVec 16) (s : State),
    decode (0x08#8 ++ low) = .instr (.type22 low) ∧ exec (.type22 low) s = .refused (.reservedWord .type22)) ∧
  ∀ (d : Bool) (a : BitVec 14),
    decode (0b001111#6 ++ a ++ 0b1111#4) = .reserved .regCode ∧
    decode (0b100#3 ++ BitVec.ofBool d ++ 0b11#2 ++ a ++ 0b1111#4) = .reserved .regCode

/-- What the 16 COND codes and the 16 TERM codes test: the list of each code's truth, from 0000 to 1111, on the bits of ASTAT and
on CE, the counter being 1, as they stand at the start of the instruction (30_encoding.md R176, R177; 44_program_flow.md
R412). -/
def Obligations.ConditionCodes : Prop :=
  ∀ s : State,
    let az := s.st.astat.getLsbD 0
    let lt := s.st.astat.getLsbD 1 != s.st.astat.getLsbD 2
    let av := s.st.astat.getLsbD 2
    let ac := s.st.astat.getLsbD 3
    let neg := s.st.astat.getLsbD 4
    let mv := s.st.astat.getLsbD 6
    let ce := decide (s.seq.cntr.toNat = 1)
    (List.range 16).map (fun k => s.cond (Cond.ofCode k)) =
      [az, !az, !(lt || az), lt || az, lt, !lt, av, !av, ac, !ac, neg, !neg, mv, !mv, !ce, true] ∧
    (List.range 16).map (fun k => termTrue (Term.ofCode k) s.st.astat s.seq.cntr) =
      [!az, az, lt || az, !(lt || az), !lt, lt, !av, av, !ac, ac, !neg, neg, !mv, mv, ce, false]

/-! ### The step -/

/-- A step runs the decoded instruction: its own effect by `exec`, then the end of its cycle, a reserved word being refused.
That a fetch with no memory is refused is the model's choice (notes/assumptions/14.md; 92_eei_decisions.md D8); so is it that,
with the bus granted in Go mode, or a grant waiting for the end of a BDMA byte access, an instruction that needs the bus, for
its own fetch or another access, waits as a whole (notes/assumptions/35.md) (44_program_flow.md R400; 70_reset_and_hazards.md
R731). -/
def Obligations.StepRunsDecoded : Prop :=
  ∀ s : State, s.Ready →
    (s.busTaken = true ↔
      s.bg = true ∨ (s.br = true ∧ s.bdma.active = true ∧ s.bdma.wait % (s.bmwait + 1) ≠ 0)) ∧
    (s.busTaken = true → s.ownFetch = true → step s = .next s.stall) ∧
    ((s.busTaken && s.ownFetch) = false →
      (∀ w i, s.fetch = some w → decode w = .instr i →
        step s = match exec i s with
          | .next t => if s.busTaken && s.needsBus t i then .next s.stall else .next (s.finish t i)
          | .fault f => .fault f
          | .refused r => .refused r) ∧
      (∀ w r, s.fetch = some w → decode w = .reserved r → step s = .refused (.reservedWord r)) ∧
      (s.fetch = none → step s = .refused .unpopulatedFetch))

/-- The end of an instruction's cycle changes nothing of what the instruction did but by the one-cycle actions and what counts
cycles. The next word is prefetched and the delayed pop of `reg = TOPPCSTACK` is done; the latency buffers move on; a due
PDFORCE requests powerdown, a due IFC and the new ICNTL act on the latches as OneCycleActions says; an enabled timer counts by
its prescale, reloads and requests its interrupt, a write of TCOUNT winning; the ports' due companding steps are done as
Companding says, and their generated clocks divide by what SCLKDIV was at the last rising edge; the BDMA byte accesses advance
by the instruction's cycles, which are one, one for each external access beyond the first, and the wait states, or, while a bus
request waits, to the end of the one in progress, where the bus is granted. That the prefetch reads memory as it was at the
start of the instruction is the model's choice (notes/assumptions/34.md; 20_memory.md R133; 92_eei_decisions.md D4), and so are
the two cycles of synchronisation of a timer request (notes/assumptions/50.md), one cycle of timer and serial clocks an
instruction (notes/assumptions/8.md, 37.md), the count of the BDMA cycles (notes/assumptions/36.md), also while a request waits
(notes/assumptions/35.md), that PDFORCE makes a sequence its own (notes/assumptions/38.md), that a timer request of a cycle
survives an IFC clear due in it, of which the spec fixes no order (notes/assumptions/39.md), how the clock counts
(notes/assumptions/42.md), that PDFORCE is due at the end of the instruction after the write (notes/assumptions/54.md) and,
from general knowledge, the bits of IFC (notes/assumptions/32.md). Of the sequencer nothing is said where a return or POP PC
comes too soon after `TOPPCSTACK = reg`, or where the delayed pop meets a use of the PC stack: these outcomes are open
(notes/assumptions/19.md) (10_state.md R71, R72; 45_misc.md R462; 20_memory.md R133; 60_exceptions.md R525, R526, R550, R560,
R561; 62_serial_ports.md R583, R585, R593; 61_peripherals.md R617; 70_reset_and_hazards.md R720, R721, R722, R731;
92_eei_decisions.md D4, D23). -/
def Obligations.FinishKeeps : Prop :=
  ∀ (s t : State) (i : Instr),
    let u := s.finish t i
    let w := s.seenFetch.fetchAt t.st.pmovlay t.seq.pc
    (u.cfg = t.cfg ∧ u.pri = t.pri ∧ u.sec = t.sec ∧ u.dag = t.dag ∧ u.px = t.px ∧ u.st = t.st ∧ u.mem = t.mem) ∧
    (u.ctl = t.ctl ∧ u.mc = t.mc ∧ u.idma = t.idma ∧ u.flags = t.flags ∧ u.core = t.core ∧ u.pins = t.pins) ∧
    (u.br = t.br ∧ u.io = t.io ∧ u.env = t.env ∧ u.stalled = false ∧ u.held = .none ∧ u.amid = t.amid) ∧
    (s.held = .none → w = s.fetchAt t.st.pmovlay t.seq.pc) ∧
    ((t.lat.use.retPop && (s.lat.push1 || (s.lat.push2 && s.atLoopEnd))) = false →
      (s.lat.popDue = false → u.seq = { t.seq with prefetch := w }) ∧
      (s.lat.popDue = true → t.lat.use.pcStack = false → t.lat.use.full = false →
        u.seq = { t.seq with pcStk := t.seq.pcStk.pop pcDepth, prefetch := w })) ∧
    (u.lat = {
      imaskHold := t.lat.imaskNew, imaskNew := false
      icntlEff := s.st.icntl
      ifcDue := t.lat.ifcNew, ifcNew := 0
      popDue := t.lat.popNew, popNew := false
      pdDue := t.lat.pdNew, pdNew := false
      push2 := t.lat.push1, push1 := t.lat.pushNew, pushNew := false
      tcountSet := false
      use := Use.none }) ∧
    (let n : Nat := s.cycles u i
     let ext : Nat := (s.fetchLeft u).toNat + (s.pmLeft i).toNat + (s.dmExtern i).toNat + (ioAccess i).isSome.toNat
     n = 1 + (ext - 1) + (s.ownFetch.toNat + (s.fetchLeft u).toNat + (s.pmLeft i).toNat) * s.pwait +
        (s.dmExtern i).toNat * s.dwait + (match ioAccess i with | some a => s.iowait a | none => 0) ∧
      u.freeCtr = t.freeCtr + 1 ∧ u.clock = t.clock + n * s.period ∧
      let left : Nat := if t.bdma.active then t.bdma.wait % (t.bmwait + 1) else 0
      u.bg = (t.bg || (t.br && decide (left ≤ n))) ∧
      u.bdma = if t.bdma.active = true ∧ t.bg = false
        then { t.bdma with wait := t.bdma.wait - if t.br then min n left else n } else t.bdma) ∧
    (let tick : Bool := s.timerOn && decide (t.timer.tscale ≤ t.timer.tps)
     let count : Word :=
       if t.lat.tcountSet then t.timer.tcount else if s.timer.tcount = 0 then t.timer.tperiod else s.timer.tcount - 1
     let zero : Bool := tick && s.timer.tcount == 0
     let asked : Bool := t.lat.ifcDue.getLsbD 8 || (t.irq.latch.getLsbD 0 && !t.lat.ifcDue.getLsbD 0)
     u.timer = { t.timer with
       tcount := if tick then count else t.timer.tcount
       tps := if s.timerOn then (if tick then 0 else t.timer.tps + 1) else if t.timerOn then 0 else t.timer.tps } ∧
     u.irq = { t.irq with
       latch := u.irq.latch
       latchPwd := t.irq.latchPwd || t.lat.pdDue
       pdForced := t.irq.pdForced || t.lat.pdDue
       timerWait := if zero && !asked then 2 else (if t.lat.ifcDue.getLsbD 8 then 0 else t.irq.timerWait) - 1 } ∧
     u.irq.latch.getLsbD 0 = (asked || zero) ∧
     (∀ j, j ≠ 0 → u.irq.latch.getLsbD j = (s.endCycle t 0).irq.latch.getLsbD j) ∧
     (t.lat.ifcDue = 0 → s.st.icntl = t.lat.icntlEff → ∀ j, j ≠ 0 → u.irq.latch.getLsbD j = t.irq.latch.getLsbD j)) ∧
    ∀ k : Fin 2,
      let p := t.sport k
      let q := u.sport k
      q = { t.compandStep.sport k with divCur := q.divCur, sclkCnt := q.sclkCnt, rfsCnt := q.rfsCnt } ∧
      q = { p with
        tx := q.tx, rx := q.rx, compNew := false, compDue := q.compDue, expNew := false, expDue := q.expDue, expBusy := false
        divCur := q.divCur, sclkCnt := q.sclkCnt, rfsCnt := q.rfsCnt } ∧
      (p.compDue = false → q.tx = p.tx ∧ q.compDue = p.compNew) ∧ (p.expDue = false → q.rx = p.rx ∧ q.expDue = p.expNew) ∧
      if (s.sport k).ctl.getLsbD 14 = true then
        if p.sclkCnt + 1 < 2 * (p.divCur.toNat + 1) then
          q.sclkCnt = p.sclkCnt + 1 ∧ q.divCur = p.divCur ∧ q.rfsCnt = p.rfsCnt
        else q.sclkCnt = 0 ∧ q.divCur = p.sclkdiv ∧
          q.rfsCnt = if p.ctl.getLsbD 8 then (if p.rfsCnt < p.rfsdiv.toNat then p.rfsCnt + 1 else 0) else p.rfsCnt
      else q.sclkCnt = p.sclkCnt ∧ q.divCur = p.sclkdiv ∧ q.rfsCnt = p.rfsCnt

/-- At an instruction boundary of the running or idle core the first of these that applies happens: a waiting IDMA access, one
cycle stolen where it reaches internal memory, that is for all but an address latch, the second half of a Program Memory read
and the first half of a Program Memory write; a BDMA word; an autobuffer transfer, with the wait states of an external page; an
interrupt, in whose cycle the word at the vector is fetched, with the wait states of an external one; in the idle state a
waiting cycle, at whose end a PDFORCE that an autobuffer transfer stored requests powerdown, and which in IDLE (n) is n
processor cycles long, as is every stolen one. That an IDMA half that only uses a latch steals no cycle, as R627 and R628 say
against R723, is the model's choice (notes/assumptions/29.md); so are the n cycles (notes/assumptions/9.md) and the cycle in
which the PDFORCE is recognised (notes/assumptions/54.md). That the core waits with an autobuffer transfer to an external page
while the bus is granted, or about to be, is the model's choice (notes/assumptions/35.md), and so is that an entry whose fetch
needs the bus then leaves it to the next step (notes/assumptions/34.md) (20_memory.md R133, R138, R139; 60_exceptions.md R540,
R541, R545, R550; 61_peripherals.md R627, R628, R632; 70_reset_and_hazards.md R690, R720, R722, R723, R731; 44_program_flow.md
R430). -/
def Obligations.BoundaryPriority : Prop :=
  ∀ s : State, s.env = [] → (s.core = .running ∨ ∃ n, s.core = .idle n) → s.stalled = false → s.busHalts = false →
    (∀ op, s.idma.pend = some op →
      let cycles : Nat :=
        match op with
        | .latch _ => 0
        | .read => if s.idma.toDm = false ∧ s.idma.half = .secondRead then 0 else 1
        | .write _ => if s.idma.toDm = false ∧ s.idma.half = .first then 0 else 1
      step s = costing (cycles * s.period) ((s.setIdma { s.idma with pend := none }).idmaStep op)) ∧
    (s.idma.pend = none → s.bdmaReady = true → step s = costing s.period s.bdmaWord) ∧
    (s.idma.pend = none → s.bdmaReady = false → ∀ t, s.autobuffer = some t →
      step s = if s.busTaken && s.autoExtern then .next (s.waitCycle 1)
        else .next (t.count ((1 + if s.autoExtern then s.dwait else 0) * s.period))) ∧
    (s.idma.pend = none → s.bdmaReady = false → s.autobuffer = none →
      ∀ x, s.interrupt = some x →
        let t := s.takeInterrupt x
        let ext : Bool := t.fetchExtern
        step s = .next (if ext && s.busTaken then t.count 1
          else State.count { t with seq := { t.seq with prefetch := t.fetchAt t.st.pmovlay t.seq.pc } }
            (1 + if ext then s.pwait else 0))) ∧
    (s.idma.pend = none → s.bdmaReady = false → s.autobuffer = none → s.interrupt = none →
      ∀ n, s.core = .idle n →
        let t : State := { s with
          irq := { s.irq with latchPwd := s.irq.latchPwd || s.lat.pdDue, pdForced := s.irq.pdForced || s.lat.pdDue }
          lat := { s.lat with pdDue := s.lat.pdNew, pdNew := false } }
        step s = .next (t.waitCycle 1) ∧ (t.waitCycle 1).clock = s.clock + n ∧ (t.waitCycle 1).core = .idle n ∧
        (t.waitCycle 1).irq.latchPwd = t.irq.latchPwd ∧ (t.waitCycle 1).lat = t.lat) ∧
    (∀ n, s.core = .idle n → s.period = n) ∧ (s.core = .running → s.period = 1)

/-! ### Memory -/

/-- A Data Memory word stored is read back; outside Host Memory Mode every other word of Data Memory and all of Program Memory is as
before. An access above 0x3FDF is one of a control register; one from 0x2000 on is internal, whatever DMOVLAY holds; one below is in
the page of DMOVLAY, which the member has as an internal page or which is external page 1 or 2, and outside Host Memory Mode two
addresses or two pages never share a place. Of external places, which are the board's, and of the places of the small members, this
is the model's choice (notes/assumptions/33.md) (20_memory.md R105, R111, R112, R113, R124; 92_eei_decisions.md D8). -/
def Obligations.DmStoreThenRead : Prop :=
  (∀ (s : State) (a : Addr) (v : Word) (l : Loc), Memory.wf s.mem = true → a.toNat < 0x3FE0 →
    s.dmLoc s.st.dmovlay a = some l →
    (s.writeDm a v).readDm a = v ∧
    (s.hostMode = false → ∀ b : Addr, b ≠ a → b.toNat < 0x3FE0 → (s.writeDm a v).readDm b = s.readDm b) ∧
    (∀ c, (s.writeDm a v).readPm c = s.readPm c)) ∧
  (∀ (s : State) (a : Addr) (v : Word), 0x3FE0 ≤ a.toNat →
    s.readDm a = s.readMmr (a.toNat - 0x3FE0) ∧ s.writeDm a v = s.writeMmr (a.toNat - 0x3FE0) v) ∧
  ∀ (s : State) (p q : BitVec 4) (a b : Addr), a.toNat < 0x3FE0 → b.toNat < 0x3FE0 →
    (∀ l, s.dmLoc s.st.dmovlay a = some l → s.readDm a = memGet16 s.mem l.base) ∧
    (0x2000 ≤ a.toNat → s.dmLoc p a = s.dmLoc q a ∧ (∀ l, s.dmLoc p a = some l → l.ext = false) ∧
      ((s.dmLoc p a).isSome = true ↔ (s.cfg.member.dmRam = 0x1000 → 0x3000 ≤ a.toNat))) ∧
    (a.toNat < 0x2000 → (∀ l, s.dmLoc p a = some l → (l.ext = true ↔ p = 1 ∨ p = 2)) ∧
      ((s.dmLoc p a).isSome = true ↔ p = 1 ∨ p = 2 ∨ p.toNat ∈ s.cfg.member.dmPages)) ∧
    (s.hostMode = false → (a ≠ b ∨ a.toNat < 0x2000 ∧ p ≠ q) → ∀ l k, s.dmLoc p a = some l → s.dmLoc q b = some k →
      l.base + 2 ≤ k.base ∨ k.base + 2 ≤ l.base)

/-- A Program Memory word stored is read back as data and as an instruction; in the normal map and outside Host Memory Mode every
other word is as before, and so is Data Memory. A data access and a fetch below 0x2000 are internal, or external in the no-boot map,
whatever PMOVLAY holds; in the normal map one above is in the page of PMOVLAY, which the member has as an internal page or which is
external page 1 or 2, and outside Host Memory Mode two addresses or two pages never share a place. Of external places, the no-boot
map's among them, which are the board's, and of the places of the small members, this is the model's choice
(notes/assumptions/33.md) (20_memory.md R101, R107, R108, R109, R110; 92_eei_decisions.md D8). -/
def Obligations.PmStoreThenRead : Prop :=
  (∀ (s : State) (a : Addr) (w : PmWord) (l : Loc), Memory.wf s.mem = true → s.pmLoc s.st.pmovlay a = some l →
    (l.ext && s.hostMode) = false →
    (s.writePm a w).readPm a = w ∧
    (s.writePm a w).fetchAt s.st.pmovlay a = some w ∧
    (s.hostMode = false → s.noBootMap = false → ∀ b, b ≠ a → (s.writePm a w).readPm b = s.readPm b) ∧
    (∀ c : Addr, c.toNat < 0x3FE0 → (s.writePm a w).readDm c = s.readDm c)) ∧
  ∀ (s : State) (p q : BitVec 4) (a b : Addr),
    (∀ l, s.pmLoc s.st.pmovlay a = some l → s.fetchAt s.st.pmovlay a = some (s.readPm a) ∧
      ((l.ext && s.hostMode) = false → s.readPm a = memGet24 s.mem l.base)) ∧
    (a.toNat < 0x2000 → s.pmLoc p a = s.pmLoc q a ∧ (∀ l, s.pmLoc p a = some l → l.ext = s.noBootMap) ∧
      ((s.pmLoc p a).isSome = true ↔ s.noBootMap = true ∨ a.toNat < s.cfg.member.pmRam)) ∧
    (0x2000 ≤ a.toNat → s.noBootMap = false → (∀ l, s.pmLoc p a = some l → (l.ext = true ↔ p = 1 ∨ p = 2)) ∧
      ((s.pmLoc p a).isSome = true ↔ p = 1 ∨ p = 2 ∨ p.toNat ∈ s.cfg.member.pmPages)) ∧
    (s.hostMode = false → s.noBootMap = false → (a ≠ b ∨ 0x2000 ≤ a.toNat ∧ p ≠ q) →
      ∀ l k, s.pmLoc p a = some l → s.pmLoc q b = some k → l.base + 3 ≤ k.base ∨ k.base + 3 ≤ l.base)

/-! ### Invariants and whole-machine rules -/

/-- Every step keeps the data invariant: memory canonical, and each stack holding as many entries as its excess of pushes
says, never more than its depth (10_state.md R60 to R66). -/
def Obligations.StepKeepsOk : Prop :=
  ∀ s t : State, s.ok = true → step s = .next t → t.ok = true

/-- Reset. The reset state meets the invariant and has the values 10_state.md R80 gives: the PC, the stacks, ASTAT, MSTAT,
SSTAT, IMASK, the interrupt enable, the overlay registers, the control registers and the flags; the member it stands for, an M
or N series one, and the boot it is in are the model's choice (notes/assumptions/3.md, 4.md). RESET asserted gives, from any
state, the same values, clears the requests and sequences in progress, keeps memory, the pins and FO, and leaves the core in
reset; of the registers R80 calls undefined nothing is said. The IDMA Overlay value and the wait fields with the mode bit are
the spec's own decisions D13 and D14 (notes/assumptions/44.md). RESET released latches the mode pins and starts the boot they
select by the two tables: through BDMA with the 32 words the registers describe, through IDMA, or none; other levels are
refused, as 93_implementation_defined.md U68 says. That the levels given at the release do not reach what PF3 to PF0 read, and
the byte cycles of the first boot word, are the model's choice (notes/assumptions/26.md, 36.md) (10_state.md R76, R80;
60_exceptions.md R544; 61_peripherals.md R620, R634; 70_reset_and_hazards.md R680, R681, R682, R683, R685, R690, R731;
92_eei_decisions.md D13, D14). -/
def Obligations.ResetValues : Prop :=
  let cleared (s : State) : Prop :=
    (s.seq.pc = 0 ∧ s.seq.cntrValid = false ∧ s.sstat = 0x55 ∧ s.seq.prefetch = none) ∧
    (s.st.astat = 0 ∧ s.st.mstat = 0 ∧ s.st.imask = 0 ∧ s.st.intEnable = true ∧ s.st.pmovlay = 0 ∧ s.st.dmovlay = 0) ∧
    (s.irq.latch = 0 ∧ s.irq.latchPwd = false ∧ s.irq.pdSeq = false ∧ s.lat = Lat.none s.st.icntl) ∧
    (s.sp0.ctl = 0 ∧ s.sp1.ctl = 0 ∧ s.sp0.tbuf = false ∧ s.sp0.rbuf = false ∧ s.biasRnd = false ∧
      s.sp0.auto &&& 0xF003 = 0 ∧ s.sp1.auto &&& 0xF003 = 0 ∧ s.readMmr 15 &&& 0xF003 = 0) ∧
    (∀ n : Fin 2, (s.sport n).txFull = false ∧ (s.sport n).txReq = false ∧ (s.sport n).rxReq = false ∧
      (s.sport n).compNew = false ∧ (s.sport n).compDue = false ∧ (s.sport n).expNew = false ∧ (s.sport n).expDue = false) ∧
    (s.ctl.sysCtl = 0x0407 ∧ s.ctl.waitCtl = (if s.cfg.member.isMN then 0xFFFF else 0x7FFF) ∧
      s.ctl.pfCtl = (if s.cfg.member.isMN then 0xFB00 else 0x7B00)) ∧
    (s.bdma.ctl = 0x0008 ∧ s.bdma.bwcount = 0x20 ∧ s.bdma.bead = 0 ∧ s.bdma.biad = 0) ∧
    (s.idma.ovl = 0 ∧ s.idma.half = .first ∧ s.idma.pend = none) ∧
    (s.flags.fl0 = true ∧ s.flags.fl1 = true ∧ s.flags.fl2 = true)
  (State.reset.ok = true ∧ cleared State.reset ∧ State.reset.cfg.member.isMN = true ∧ State.reset.core = .heldBdma ∧
    State.reset.bdma.active = true) ∧
  (∀ (s : State) (rest : List Event), s.env = .resetAssert :: rest →
    ∃ t, step s = .next t ∧ cleared t ∧ t.core = .inReset ∧ t.bdma.active = false ∧
      t.mem = s.mem ∧ t.cfg = s.cfg ∧ t.pins = s.pins ∧ t.io = s.io ∧ t.env = rest ∧ t.br = s.br ∧ t.bg = s.br ∧
      t.irq.pins = s.irq.pins ∧ t.irq.pwdPin = s.irq.pwdPin ∧ t.flags.fo = s.flags.fo ∧ t.flags.pfIn = s.flags.pfIn) ∧
  (∀ (s : State) (pins : BitVec 4) (rest : List Event), s.env = .resetRelease pins :: rest → s.core = .inReset →
    let u : State := { s with env := rest, freeCtr := s.freeCtr + 1, pins := pins }
    match bootOf s.cfg.member pins with
    | none => step s = .refused .modePinsNotDescribed
    | some (.bdma, _) =>
      step s = .next { u with
        core := .heldBdma
        bdma := { s.bdma with active := true, wait := s.bdma.bytes * (s.bmwait + 1), bcrStart := true } }
    | some (.idma, _) => step s = .next { u with core := .heldIdma }
    | some (.none, _) => step s = .next { u with core := .running }) ∧
  ∀ (m : Member) (a b c d : Bool),
    let pins : BitVec 4 := BitVec.ofBool d ++ BitVec.ofBool c ++ BitVec.ofBool b ++ BitVec.ofBool a
    bootOf m pins =
      if m.hasModePins then
        match c, b, a with
        | false, false, false => some (.bdma, false)
        | false, true, false => some (.none, false)
        | true, false, false => some (.bdma, true)
        | true, false, true => some (.idma, true)
        | _, _, _ => none
      else
        match b, a with
        | true, _ => some (.none, false)
        | false, true => some (.idma, false)
        | false, false => some (.bdma, false)

/-- Only the store instructions write memory. Only Data Memory stores, I/O writes, the flag outputs, IDLE, RTI and loads of the
serial port registers reach a device, a pin or the core state; and MSTAT, IMASK, ICNTL, the overlay registers and the interrupt
enable change only by the instructions that name them, by stack control, RTI and mode control (20_memory.md R125; 10_state.md R32,
R34, R35, R37, R38). -/
def Obligations.OnlyTheseReach : Prop :=
  ∀ (i : Instr) (s t : State), exec i s = .next t →
    (storesMemory i = false → SameMem s t) ∧
    (reachesDevices i = false → SameDevices s t) ∧
    (writesControl i = false → t.st = { s.st with astat := t.st.astat })

/-! ### The ALU -/

/-- Additions: value, saturation, flags and frame of every Type 9 form that adds (40_alu.md R222 to R225, R240, R252). -/
def Obligations.AluAdditions : Prop :=
  ∀ (z : Dest) (x : Xop) (c : Cond) (s : State), s.cond c = true →
    let xv := s.bank.aluX x
    let cy := s.carryIn
    let gives (i : Instr) (e : Exact) : Prop := Completes i s (fun t => RegFrame s t ∧ AluDone s t z e)
    (∀ y, gives (.aluAdd z y x c) (exactSum xv (s.bank.aluY (yopOf y)) 0)) ∧
    (∀ y, gives (.aluAddC z y x c) (exactSum xv (s.bank.aluY (yopOf y)) cy)) ∧
    (∀ k, gives (.aluAddConst z k x c) (exactSum xv (constValue k) 0)) ∧
    (∀ k, gives (.aluAddConstC z k x c) (exactSum xv (constValue k) cy)) ∧
    (∀ y, gives (.aluIncY z y x c) (exactSum (s.bank.aluY (yopOf y)) 0 1)) ∧
    gives (.aluPassX z x c) (exactSum xv 0 0) ∧
    gives (.aluXAddC z x c) (exactSum xv 0 cy) ∧
    gives (.aluPassOne z x c) (exactSum 0 0 1)

/-- Subtractions: value, saturation, flags and frame of every Type 9 form that subtracts, negates or decrements
(40_alu.md R222, R225, R228 to R233, R244, R254). -/
def Obligations.AluSubtractions : Prop :=
  ∀ (z : Dest) (x : Xop) (c : Cond) (s : State), s.cond c = true →
    let xv := s.bank.aluX x
    let bw := s.borrowIn
    let gives (i : Instr) (e : Exact) : Prop := Completes i s (fun t => RegFrame s t ∧ AluDone s t z e)
    (∀ y, gives (.aluSub z y x c) (exactDifference xv (s.bank.aluY y) 0)) ∧
    (∀ y, gives (.aluSubBorrow z y x c) (exactDifference xv (s.bank.aluY (yopOf y)) bw)) ∧
    (∀ k, gives (.aluSubConst z k x c) (exactDifference xv (constValue k) 0)) ∧
    (∀ k, gives (.aluSubConstBorrow z k x c) (exactDifference xv (constValue k) bw)) ∧
    (∀ y, gives (.aluRsub z y x c) (exactDifference (s.bank.aluY (yopOf y)) xv 0)) ∧
    (∀ y, gives (.aluRsubBorrow z y x c) (exactDifference (s.bank.aluY (yopOf y)) xv bw)) ∧
    (∀ k, gives (.aluRsubConst z k x c) (exactDifference (constValue k) xv 0)) ∧
    (∀ k, gives (.aluRsubConstBorrow z k x c) (exactDifference (constValue k) xv bw)) ∧
    gives (.aluXSubBorrow z x c) (exactDifference xv 0 bw) ∧
    gives (.aluNegX z x c) (exactDifference 0 xv 0) ∧
    gives (.aluNegXBorrow z x c) (exactDifference 0 xv bw) ∧
    (∀ y, gives (.aluNegY z y x c) (exactDifference 0 (s.bank.aluY y) 0)) ∧
    (∀ k, gives (.aluNegConst z k x c) (exactDifference 0 (constValue k) 0)) ∧
    (∀ y, gives (.aluDecY z y x c) (exactDifference (s.bank.aluY (yopOf y)) 1 0)) ∧
    gives (.aluPassNegOne z x c) (exactDifference 0 1 0)

/-- Logical functions and PASS: value, flags and frame (40_alu.md R225, R236 to R240, R246). -/
def Obligations.AluLogicals : Prop :=
  ∀ (z : Dest) (x : Xop) (c : Cond) (s : State), s.cond c = true →
    let xv := s.bank.aluX x
    let gives (i : Instr) (r : Word) : Prop := Completes i s (fun t => RegFrame s t ∧ AluDone s t z (exactLogic r))
    gives (.aluPassZero z x c) 0 ∧
    gives (.aluNotZero z x c) 0xFFFF ∧
    (∀ y, gives (.aluPassY z y x c) (s.bank.aluY (yopOf y))) ∧
    (∀ y, gives (.aluNotY z y x c) (~~~(s.bank.aluY (yopOf y)))) ∧
    (∀ y, gives (.aluNotX z y x c) (~~~xv)) ∧
    (∀ y, gives (.aluAnd z y x c) (xv &&& s.bank.aluY y)) ∧
    (∀ y, gives (.aluOr z y x c) (xv ||| s.bank.aluY y)) ∧
    (∀ y, gives (.aluXor z y x c) (xv ^^^ s.bank.aluY y)) ∧
    (∀ k, gives (.aluAndConst z k x c) (xv &&& constValue k)) ∧
    (∀ k, gives (.aluOrConst z k x c) (xv ||| constValue k)) ∧
    (∀ k, gives (.aluXorConst z k x c) (xv ^^^ constValue k)) ∧
    (∀ k, gives (.aluNotConst z k x c) (~~~(constValue k)))

/-- ABS: the magnitude, AS the operand's sign, overflow for the most negative word alone. PASS of a constant that is not 0, 1 or
-1, one more, one less: the value is loaded as it is, never saturated; bits 4 to 7 of ASTAT are as before, and of AZ, AN, AV and AC
nothing is said (notes/assumptions/12.md) (40_alu.md R241, R248). -/
def Obligations.AluAbsoluteAndPassConstants : Prop :=
  ∀ (z : Dest) (y : Yop) (x : Xop) (k : Const) (c : Cond) (s : State), s.cond c = true →
    let gives (i : Instr) (r : Word) : Prop :=
      Completes i s (fun t => RegFrame s t ∧ t.bank = aluBank s z (exactLogic r) ∧ SameAstatFrom s t 4)
    Completes (.aluAbs z y x c) s (fun t => RegFrame s t ∧ AbsDone s t z (s.bank.aluX x)) ∧
    gives (.aluPassConst z k x c) (constValue k) ∧
    gives (.aluPassConstInc z k x c) (constValue k + 1) ∧
    gives (.aluPassConstDec z k x c) (constValue k - 1)

/-- NONE: the flags of the function, by exact arithmetic, AR_SAT having no effect on them in either reading of
ALU_SAT_FLAGS_FROM_SATURATED, and no register written (40_alu.md R262). -/
def Obligations.AluNoneFlags : Prop :=
  ∀ (fn : AluFn) (y : Yop) (x : Xop) (s : State),
    Completes (.aluNone fn y x) s (fun t => RegFrame s t ∧ t.bank = s.bank ∧
      AluFlags s t false (exactAlu fn (s.bank.aluX x) (s.bank.aluY y) s.carryIn) ∧
      (if fn = .abs then astatAS t.st.astat = (s.bank.aluX x).getLsbD 15 ∧ SameAstatFrom s t 5 else SameAstatFrom s t 4))

/-- DIVS and DIVQ: the 32-bit pair AF and AY0 shifts left by one, and the quotient bit and AQ follow the signs; a DIVQ
inside a hardware loop leaves AF, AY0 and AQ open and nothing else. Which addresses count as inside is the model's choice
(notes/assumptions/21.md, and 5.md for the first of them) (40_alu.md R258, R259; 70_reset_and_hazards.md R712). -/
def Obligations.Division : Prop :=
  ∀ (x : Xop) (s : State),
    let xv := s.bank.aluX x
    let pair (b : Bank) : BitVec 32 := b.af ++ b.ay0
    let stepTo (t : State) (hi : Word) (bit q : Bool) : Prop :=
      pair t.bank = ((hi ++ s.bank.ay0) <<< 1) + BitVec.ofNat 32 bit.toNat ∧
      t.bank = { s.bank with af := t.bank.af, ay0 := t.bank.ay0 } ∧ astatAQ t.st.astat = q ∧
      ∀ k, k ≠ 5 → t.st.astat.getLsbD k = s.st.astat.getLsbD k
    (∀ y, Completes (.divs y x) s (fun t => RegFrame s t ∧
      stepTo t (s.bank.divY y) (xv.getLsbD 15 != (s.bank.divY y).getLsbD 15)
        (xv.getLsbD 15 != (s.bank.divY y).getLsbD 15))) ∧
    Completes (.divq x) s (fun t => RegFrame s t ∧
      let r := if astatAQ s.st.astat then s.bank.af + xv else s.bank.af - xv
      if s.inLoop then
        t.bank = { s.bank with af := t.bank.af, ay0 := t.bank.ay0 } ∧
          ∀ k, k ≠ 5 → t.st.astat.getLsbD k = s.st.astat.getLsbD k
      else stepTo t r (xv.getLsbD 15 == r.getLsbD 15) (xv.getLsbD 15 != r.getLsbD 15))

/-- A false condition suppresses the whole effect of a conditional computation: the instruction completes and does
what a NOP does (30_encoding.md R176; 40_alu.md R225; 41_mac.md R284, R293; 42_shifter.md R325 to R327, R330, R331; 45_misc.md
R459). -/
def Obligations.ConditionFalse : Prop :=
  ∀ (i : Instr) (c : Cond) (s : State), guard i = some c → s.cond c = false →
    Completes i s (fun t => OnlyFlow s t ∧ SameFlow s t)

/-! ### The MAC -/

/-- The unrounded multiplications, the clearing and the transfer of MR: the 40-bit result by exact arithmetic, MV, and the
frame; MF receives bits 31:16 and then MR is as before (41_mac.md R282 to R289, R291, R292). -/
def Obligations.MacProducts : Prop :=
  ∀ (z : Dest) (x : Xop) (c : Cond) (s : State), s.cond c = true →
    let xv := s.bank.macX x
    let gives (i : Instr) (acc p : Int) : Prop := Completes i s (fun t => RegFrame s t ∧ MacExact s t z acc p)
    gives (.macZero z x c) 0 0 ∧
    gives (.macCopy z x c) 1 0 ∧
    gives (.macSqSS z x c) 0 (xv.toInt * xv.toInt) ∧
    gives (.macAddSqSS z x c) 1 (xv.toInt * xv.toInt) ∧
    gives (.macSubSqSS z x c) (-1) (xv.toInt * xv.toInt) ∧
    gives (.macSqUU z x c) 0 (s.unsignedProduct xv xv) ∧
    gives (.macAddSqUU z x c) 1 (s.unsignedProduct xv xv) ∧
    gives (.macSubSqUU z x c) (-1) (s.unsignedProduct xv xv) ∧
    (∀ y, gives (.macMulSS z y x c) 0 (xv.toInt * (s.bank.macY (yopOf y)).toInt)) ∧
    (∀ y, gives (.macAddSS z y x c) 1 (xv.toInt * (s.bank.macY (yopOf y)).toInt)) ∧
    (∀ y, gives (.macSubSS z y x c) (-1) (xv.toInt * (s.bank.macY y).toInt)) ∧
    (∀ y, gives (.macMulSU z y x c) 0 (xv.toInt * (s.bank.macY y).toNat)) ∧
    (∀ y, gives (.macAddSU z y x c) 1 (xv.toInt * (s.bank.macY y).toNat)) ∧
    (∀ y, gives (.macSubSU z y x c) (-1) (xv.toInt * (s.bank.macY y).toNat)) ∧
    (∀ y, gives (.macMulUS z y x c) 0 (xv.toNat * (s.bank.macY y).toInt)) ∧
    (∀ y, gives (.macAddUS z y x c) 1 (xv.toNat * (s.bank.macY y).toInt)) ∧
    (∀ y, gives (.macSubUS z y x c) (-1) (xv.toNat * (s.bank.macY y).toInt)) ∧
    (∀ y, gives (.macMulUU z y x c) 0 (s.unsignedProduct xv (s.bank.macY y))) ∧
    (∀ y, gives (.macAddUU z y x c) 1 (s.unsignedProduct xv (s.bank.macY y))) ∧
    (∀ y, gives (.macSubUU z y x c) (-1) (s.unsignedProduct xv (s.bank.macY y)))

/-- The rounded multiplications and the rounding of MR: nearest multiple of 65536, ties by BIASRND (41_mac.md R284, R290,
R292). -/
def Obligations.MacRoundings : Prop :=
  ∀ (z : Dest) (x : Xop) (c : Cond) (s : State), s.cond c = true →
    let xv := s.bank.macX x
    let gives (i : Instr) (acc p : Int) : Prop := Completes i s (fun t => RegFrame s t ∧ MacRounded s t z acc p)
    gives (.macRnd z x c) 1 0 ∧
    gives (.macSqRnd z x c) 0 (xv.toInt * xv.toInt) ∧
    gives (.macAddSqRnd z x c) 1 (xv.toInt * xv.toInt) ∧
    gives (.macSubSqRnd z x c) (-1) (xv.toInt * xv.toInt) ∧
    (∀ y, gives (.macMulRnd z y x c) 0 (xv.toInt * (s.bank.macY y).toInt)) ∧
    (∀ y, gives (.macAddRnd z y x c) 1 (xv.toInt * (s.bank.macY (yopOf y)).toInt)) ∧
    (∀ y, gives (.macSubRnd z y x c) (-1) (xv.toInt * (s.bank.macY y).toInt))

/-- SAT MR, the word 0x050000: with MV set MR takes the 32-bit full scale of the sign of MR2, and no flag and no other register
changes; with MV clear it is a NOP (41_mac.md R293). -/
def Obligations.SaturateMr : Prop :=
  decode 0x050000 = .instr .satMr ∧
  ∀ s : State,
    (astatMV s.st.astat = true →
      Completes .satMr s (fun t => RegFrame s t ∧ t.st.astat = s.st.astat ∧
        t.bank = { s.bank with mr0 := t.bank.mr0, mr1 := t.bank.mr1, mr2 := t.bank.mr2 } ∧
        t.bank.mr = if s.bank.mr2.getLsbD 7 then 0xFF80000000 else 0x007FFFFFFF)) ∧
    (astatMV s.st.astat = false → exec .satMr s = exec .nop s)

/-! ### The shifter -/

/-- Shift immediate: the word's layout, and every bit of SR by its place, for each reference, OR option and code; SE is neither
read nor written and no flag changes (42_shifter.md R321, R323, R328, R329). -/
def Obligations.ShiftImmediates : Prop :=
  ∀ (x : ShXop) (e : BitVec 8) (s : State),
    let v := s.bank.shX x
    let gives (sf : BitVec 4) (i : Instr) (hi orSr ext : Bool) : Prop :=
      decode (0b000011110#9 ++ sf ++ BitVec.ofNat 3 x.code ++ e) = .instr i ∧
      Completes i s (fun t => RegFrame s t ∧ ShiftDone s t orSr v (e.toInt + if hi then 16 else 0) ext)
    gives 0b0000 (.lshiftImmHi x e) true false false ∧
    gives 0b0001 (.lshiftImmHiOr x e) true true false ∧
    gives 0b0010 (.lshiftImmLo x e) false false false ∧
    gives 0b0011 (.lshiftImmLoOr x e) false true false ∧
    gives 0b0100 (.ashiftImmHi x e) true false (v.getLsbD 15) ∧
    gives 0b0101 (.ashiftImmHiOr x e) true true (v.getLsbD 15) ∧
    gives 0b0110 (.ashiftImmLo x e) false false (v.getLsbD 15) ∧
    gives 0b0111 (.ashiftImmLoOr x e) false true (v.getLsbD 15)

/-- Conditional shifts by SE, and NORM by its negation, with AC extending a HI normalization; also the functions that the
multifunction words share (42_shifter.md R321 to R327). -/
def Obligations.ShiftsBySe : Prop :=
  ∀ (x : ShXop) (c : Cond) (s : State), s.cond c = true →
    let v := s.bank.shX x
    let se := s.bank.se.toInt
    let gives (i : Instr) (fn : ShiftFn) (p : Int) (orSr ext : Bool) : Prop :=
      Completes i s (fun t => RegFrame s t ∧ ShiftDone s t orSr v p ext ∧ t.bank = (s.shiftReg fn x).bank)
    gives (.lshiftHi x c) .lshiftHi (se + 16) false false ∧
    gives (.lshiftHiOr x c) .lshiftHiOr (se + 16) true false ∧
    gives (.lshiftLo x c) .lshiftLo se false false ∧
    gives (.lshiftLoOr x c) .lshiftLoOr se true false ∧
    gives (.ashiftHi x c) .ashiftHi (se + 16) false (v.getLsbD 15) ∧
    gives (.ashiftHiOr x c) .ashiftHiOr (se + 16) true (v.getLsbD 15) ∧
    gives (.ashiftLo x c) .ashiftLo se false (v.getLsbD 15) ∧
    gives (.ashiftLoOr x c) .ashiftLoOr se true (v.getLsbD 15) ∧
    gives (.normHi x c) .normHi (-se + 16) false (astatAC s.st.astat) ∧
    gives (.normHiOr x c) .normHiOr (-se + 16) true (astatAC s.st.astat) ∧
    gives (.normLo x c) .normLo (-se) false false ∧
    gives (.normLoOr x c) .normLoOr (-se) true false

/-- EXP: minus the number of redundant sign bits; HIX takes +1 and the inverted sign when AV is set; LO goes on from -15,
counting the bits of the low word that equal SS; EXPADJ keeps the greater of SB and the exponent (42_shifter.md R324, R330,
R331). -/
def Obligations.Exponents : Prop :=
  ∀ (x : ShXop) (c : Cond) (s : State), s.cond c = true →
    let v := s.bank.shX x
    let same (t : State) (fn : ShiftFn) : Prop := t.bank = (s.shiftReg fn x).bank ∧ t.st.astat = (s.shiftReg fn x).st.astat
    (∀ n, RedundantSigns v n →
      Completes (.expHi x c) s (fun t => RegFrame s t ∧ ExpDone s t (-(n : Int)) (v.getLsbD 15) ∧ same t .expHi) ∧
      Completes (.expHix x c) s (fun t => RegFrame s t ∧ same t .expHix ∧
        (if astatAV s.st.astat then ExpDone s t 1 (!v.getLsbD 15) else ExpDone s t (-(n : Int)) (v.getLsbD 15))) ∧
      Completes (.expAdj x c) s (fun t => RegFrame s t ∧ t.st.astat = s.st.astat ∧ same t .expAdj ∧
        t.bank = { s.bank with sb := t.bank.sb } ∧ t.bank.sb.toInt = max s.bank.sb.toInt (-(n : Int)))) ∧
    Completes (.expLo x c) s (fun t => RegFrame s t ∧ t.st.astat = s.st.astat ∧ same t .expLo ∧
      if s.bank.se.toInt = -15 then
        ∃ n : Nat, n ≤ 16 ∧ t.bank = { s.bank with se := BitVec.ofInt 8 (-15 - (n : Int)) } ∧
          (∀ k, k < n → v.getLsbD (15 - k) = astatSS s.st.astat) ∧
          (n < 16 → v.getLsbD (15 - n) = !astatSS s.st.astat)
      else t.bank = s.bank)

/-! ### Multifunction words -/

/-- A computation or a shift with a register move, and the move alone: the computation is the exact one, unconditional, and
the move takes the source as it was at the start; where both write one register, that register alone is open. The other
instructions that compute beside a move use the same `compute` (46_multifunction.md R490, R498, R499; notes/assumptions/11.md). -/
def Obligations.ComputeAndMove : Prop :=
  ∀ (z : Dest) (y : Yop) (x : Xop) (sx : ShXop) (dd sd : Dreg) (s : State),
    let v := s.bank.dreg sd
    let moved (i : Instr) (cp : Comp) : Prop :=
      Completes i s (fun t => RegFrame s t ∧ t.st.astat = (s.compute z cp).st.astat ∧ CompDone s (s.compute z cp) z cp ∧
        Loaded (s.compute z cp).bank t.bank (compWrites z cp dd) dd v)
    (∀ fn, moved (.aluMove z fn y x dd sd) (.alu fn y x)) ∧
    (∀ fn, moved (.macMove z fn y x dd sd) (.mac fn y x)) ∧
    (∀ fn, Completes (.shiftMove fn sx dd sd) s (fun t => RegFrame s t ∧ t.st.astat = (s.shiftReg fn sx).st.astat ∧
      Loaded (s.shiftReg fn sx).bank t.bank (shiftWrites fn dd) dd v)) ∧
    Completes (.moveDreg dd sd) s (fun t => RegFrame s t ∧ t.st.astat = s.st.astat ∧ Loaded s.bank t.bank false dd v)

/-- A computation or a shift with a Data Memory read, and the read alone: the register takes the word at the address the
DAG puts out, the I register is post-modified, memory is as before; where the computation writes the same register, that
register alone is open (43_move.md R365; 46_multifunction.md R490, R492, R493; notes/assumptions/11.md). -/
def Obligations.LoadsFromDm : Prop :=
  ∀ (g : Bool) (z : Dest) (cp : Comp) (fn : ShiftFn) (x : ShXop) (d : Dreg) (i m : BitVec 2) (s : State),
    let gives (j : Instr) (u : State) (clash : Bool) : Prop :=
      Completes j s (fun t => ComputeFrame s t ∧ SameMem s t ∧ t.px = s.px ∧ t.dag = (s.post g i m).dag ∧
        t.st.astat = u.st.astat ∧ Loaded u.bank t.bank clash d (s.readDm (s.addr g i)))
    gives (.loadDm g d i m) s false ∧
    gives (.compLoadDm g z cp d i m) (s.compute z cp) (compWrites z cp d) ∧
    gives (.shiftLoadDm g fn x d i m) (s.shiftReg fn x) (shiftWrites fn d)

/-- A computation or a shift with a Program Memory read, and the read alone: bits 23:8 go to the register, bits 7:0 to
PX; where the computation writes the same register, that register alone is open, which D16 calls any value (notes/assumptions/11.md)
(20_memory.md R101; 43_move.md R369; 46_multifunction.md R490 (c), R492, R493; 92_eei_decisions.md D16). -/
def Obligations.LoadsFromPm : Prop :=
  ∀ (z : Dest) (cp : Comp) (fn : ShiftFn) (x : ShXop) (d : Dreg) (i m : BitVec 2) (s : State),
    let w := s.readPm (s.addr true i)
    let gives (j : Instr) (u : State) (clash : Bool) : Prop :=
      Completes j s (fun t => ComputeFrame s t ∧ SameMem s t ∧ t.px = w.extractLsb' 0 8 ∧
        t.dag = (s.post true i m).dag ∧ t.st.astat = u.st.astat ∧
        Loaded u.bank t.bank clash d (w.extractLsb' 8 16))
    gives (.loadPm d i m) s false ∧
    gives (.compLoadPm z cp d i m) (s.compute z cp) (compWrites z cp d) ∧
    gives (.shiftLoadPm fn x d i m) (s.shiftReg fn x) (shiftWrites fn d)

/-- The two reads of Type 1: both registers take the words at the addresses the two DAGs put out, beside a computation or
alone; PX takes the low byte where TYPE1_LOADS_PX is set (46_multifunction.md R496, R497; 92_eei_decisions.md D32). -/
def Obligations.DualReads : Prop :=
  ∀ (pd : PmDst) (dd : DmDst) (cp : Comp) (pi pm di dm : BitVec 2) (s : State),
    let w := s.readPm (s.addr true pi)
    let gives (j : Instr) (u : State) : Prop :=
      Completes j s (fun t => ComputeFrame s t ∧ SameMem s t ∧ t.st.astat = u.st.astat ∧
        t.dag = ((s.post false di dm).post true pi pm).dag ∧
        t.px = (if s.cfg.type1LoadsPx then w.extractLsb' 0 8 else s.px) ∧
        t.bank = (u.bank.setDreg (ddReg dd) (s.readDm (s.addr false di))).setDreg (pdReg pd) (w.extractLsb' 8 16))
    gives (.dualRead pd dd pi pm di dm) s ∧ gives (.compDualRead pd dd cp pi pm di dm) (s.compute .result cp)

/-- Every store to Data Memory: the word goes where the address the instruction names leads, every other byte is as before, and
the value stored is the one of the start of the instruction; a store to a control register notes PDFORCE or the write of
TCOUNT, and no other one-cycle action. That a store where the member has no memory is lost is the model's choice
(notes/assumptions/14.md; 20_memory.md R106) (43_move.md R366 to R368; 46_multifunction.md R494, R495; 60_exceptions.md R550,
R560; 92_eei_decisions.md D8). -/
def Obligations.StoresToDm : Prop :=
  ∀ (g : Bool) (z : Dest) (cp : Comp) (fn : ShiftFn) (x : ShXop) (d : Dreg) (r : Reg) (data : Word) (a : Addr)
    (i m : BitVec 2) (s : State), Memory.wf s.mem = true →
    let gives (j : Instr) (u : State) (v : Word) : Prop :=
      Completes j s (fun t => StoreFrame s t ∧ t.bank = u.bank ∧ t.st.astat = u.st.astat ∧
        t.dag = (s.post g i m).dag ∧ StoredDm s t (s.addr g i) v)
    gives (.storeDm g d i m) s (s.bank.dreg d) ∧
    gives (.storeDmImm g data i m) s data ∧
    gives (.compStoreDm g z cp d i m) (s.compute z cp) (s.bank.dreg d) ∧
    gives (.shiftStoreDm g fn x d i m) (s.shiftReg fn x) (s.bank.dreg d) ∧
    Completes (.storeReg r a) s (fun t => StoreFrame s t ∧ t.bank = s.bank ∧ t.st.astat = s.st.astat ∧
      t.dag = s.dag ∧ StoredDm s t a (s.bus r))

/-- Every store to Program Memory: the register's value above PX goes where the address leads, every other byte is as before,
and so are the one-cycle actions. That a store where the member has no memory is lost is the model's choice
(notes/assumptions/14.md; 20_memory.md R106) (20_memory.md R101, R118; 43_move.md R370; 46_multifunction.md R494, R495;
92_eei_decisions.md D8). -/
def Obligations.StoresToPm : Prop :=
  ∀ (z : Dest) (cp : Comp) (fn : ShiftFn) (x : ShXop) (d : Dreg) (i m : BitVec 2) (s : State),
    Memory.wf s.mem = true →
    let gives (j : Instr) (u : State) : Prop :=
      Completes j s (fun t => StoreFrame s t ∧ t.bank = u.bank ∧ t.st.astat = u.st.astat ∧
        t.dag = (s.post true i m).dag ∧ StoredPm s t (s.addr true i) (s.bank.dreg d ++ s.px))
    gives (.storePm d i m) s ∧
    gives (.compStorePm z cp d i m) (s.compute z cp) ∧
    gives (.shiftStorePm fn x d i m) (s.shiftReg fn x)

/-! ### Moves, the address generators and I/O -/

/-- `dreg = <data>` loads the data right-justified: SE and MR2 take its low 8 bits, MR1 also extends its sign into MR2;
nothing else changes (43_move.md R362). The word is 0x400000 with the data in bits 19:4 and the register in bits 3:0. -/
def Obligations.LoadDataRegisterImmediate : Prop :=
  ∀ (data : BitVec 16) (d : Dreg) (s : State),
    decode (0b0100#4 ++ data ++ BitVec.ofNat 4 d.code) = .instr (.loadDregImm data d) ∧
    Completes (.loadDregImm data d) s (fun t => RegFrame s t ∧ t.st.astat = s.st.astat ∧
      (∀ e, e ≠ d → (d = .mr1 → e ≠ .mr2) → t.bank.dreg e = s.bank.dreg e) ∧
      t.bank.af = s.bank.af ∧ t.bank.mf = s.bank.mf ∧ t.bank.sb = s.bank.sb ∧
      t.bank.dreg d = (if d = .se ∨ d = .mr2 then (data.setWidth 8).signExtend 16 else data) ∧
      (d = .mr1 → t.bank.mr2 = if data.getLsbD 15 then 0xFF else 0))

/-- The moves into a register complete: each loads, by `State.load`, the word it reads from memory, from another register,
from I/O space or from the instruction, sign-extended from 14 bits. The word read from I/O space is the latest one the board has
presented at the address as the board sees it, in Host Memory Mode A0 alone; that such events stand for the board is the model's
choice (notes/assumptions/24.md) (43_move.md R360, R363, R364, R371; 45_misc.md R464, R465; 20_memory.md R103, R118). -/
def Obligations.RegisterMoves : Prop :=
  ∀ (r src : Reg) (d : Dreg) (a : Addr) (k : Addr) (io : BitVec 11) (s : State),
    exec (.loadReg r a) s = .next (s.advance (s.load r (s.readDm a))) ∧
    exec (.loadRegImm r k) s = .next (s.advance (s.load r (k.signExtend 16))) ∧
    exec (.moveReg r src) s = .next (s.advance (s.load r (s.bus src))) ∧
    exec (.loadPmovlay k) s = .next (s.advance { s with st := { s.st with pmovlay := k.setWidth 4 } }) ∧
    exec (.loadDmovlay k) s = .next (s.advance { s with st := { s.st with dmovlay := k.setWidth 4 } }) ∧
    exec (.ioRead io d) s = .next (s.advance (s.load (.d d) (s.readIo io))) ∧
    (let seen : BitVec 11 := if s.hostMode then io &&& 1 else io
     ∀ newer older w, s.io.present = newer ++ (seen, w) :: older → (∀ p ∈ newer, p.1 ≠ seen) → s.readIo io = w) ∧
    ∀ w rest, s.env = .ioPresent io w :: rest →
      step s = .next { s with
        env := rest, freeCtr := s.freeCtr + 1, io := { s.io with present := (io, w) :: s.io.present } }

/-- A register loaded and read again gives the value cut to its width and extended as its kind is: I, L, CNTR and the status
registers zero-extended, M, SE, SB and MR2 sign-extended. SSTAT, which no load reaches, reads as the eight bits of the stacks'
states, zero-extended, and what OWRCNTR loads reads through CNTR. A load changes, of the whole machine, the named fields and
nothing else: a data register and SB in the bank MSTAT selects, MR1 also MR2; the I, M, L, overlay and status registers and PX
themselves, IMASK also the hold-off; CNTR pushes the old count if the counter is valid and OWRCNTR never, both leaving it
valid; RX and TX their own port's companding step and TX its full flag; IFC its pending command. What a register reads as then
follows: every other one as before, but that MR1 extends into MR2, that MSTAT selects the bank, and that CNTR and OWRCNTR reach
CNTR and SSTAT. That a companding step still due is dropped is the model's choice (notes/assumptions/53.md) (10_state.md R22,
R26, R30, R32, R33, R34, R35, R36, R38, R61, R72; 43_move.md R373, R374; 60_exceptions.md R543; 62_serial_ports.md R587, R593). -/
def Obligations.RegisterLoads : Prop :=
  ∀ (s : State) (v : Word),
    (∀ d : Dreg, (s.load (.d d) v).bus (.d d) = if d = .se ∨ d = .mr2 then (v.setWidth 8).signExtend 16 else v) ∧
    (∀ n, (s.load (.i n) v).bus (.i n) = v &&& 0x3FFF ∧ (s.load (.l n) v).bus (.l n) = v &&& 0x3FFF ∧
      (s.load (.m n) v).bus (.m n) = (v.setWidth 14).signExtend 16) ∧
    (s.load .sb v).bus .sb = (v.setWidth 5).signExtend 16 ∧ (s.load .px v).bus .px = v &&& 0x00FF ∧
    (s.load .pmovlay v).bus .pmovlay = v &&& 0x000F ∧ (s.load .dmovlay v).bus .dmovlay = v &&& 0x000F ∧
    (s.load .astat v).bus .astat = v &&& 0x00FF ∧ (s.load .mstat v).bus .mstat = v &&& 0x007F ∧
    (s.load .cntr v).bus .cntr = v &&& 0x3FFF ∧ (s.load .owrcntr v).bus .cntr = v &&& 0x3FFF ∧
    s.bus .cntr = s.seq.cntr.setWidth 16 ∧ s.bus .sstat = s.sstat.setWidth 16 ∧
    (s.load .imask v).bus .imask = v &&& 0x03FF ∧ (s.load .icntl v).bus .icntl &&& 0xFFF7 = v &&& 0x0017 ∧
    (let inBank (b : Bank) : State := if s.st.mstat.getLsbD 0 then { s with sec := b } else { s with pri := b }
     (∀ d : Dreg, ∃ b : Bank, s.load (.d d) v = inBank b ∧
      (∀ e, e ≠ d → (d = .mr1 → e ≠ .mr2) → b.dreg e = s.bank.dreg e) ∧
      b.dreg d = (if d = .se ∨ d = .mr2 then (v.setWidth 8).signExtend 16 else v) ∧
      (d = .mr1 → b.mr2 = if v.getLsbD 15 then 0xFF else 0) ∧
      b.af = s.bank.af ∧ b.mf = s.bank.mf ∧ b.sb = s.bank.sb) ∧
     s.load .sb v = inBank { s.bank with sb := v.setWidth 5 }) ∧
    (∀ n, s.load (.i n) v = { s with dag := { s.dag with i := s.dag.i.set n (v.setWidth 14) } } ∧
      s.load (.m n) v = { s with dag := { s.dag with m := s.dag.m.set n (v.setWidth 14) } } ∧
      s.load (.l n) v = { s with dag := { s.dag with l := s.dag.l.set n (v.setWidth 14) } }) ∧
    s.load .px v = { s with px := v.setWidth 8 } ∧
    s.load .pmovlay v = { s with st := { s.st with pmovlay := v.setWidth 4 } } ∧
    s.load .dmovlay v = { s with st := { s.st with dmovlay := v.setWidth 4 } } ∧
    s.load .astat v = { s with st := { s.st with astat := v.setWidth 8 } } ∧
    s.load .mstat v = { s with st := { s.st with mstat := v.setWidth 7 } } ∧
    s.load .imask v = { s with st := { s.st with imask := v.setWidth 10 }, lat := { s.lat with imaskNew := true } } ∧
    s.load .icntl v = { s with st := { s.st with icntl := v.setWidth 5 } } ∧
    s.load .ifc v = { s with lat := { s.lat with ifcNew := v } } ∧
    s.load .cntr v = { s with
      seq := { s.seq with
        cntr := v.setWidth 14
        cntrValid := true
        cntStk := if s.seq.cntrValid then s.seq.cntStk.push cntDepth s.seq.cntr else s.seq.cntStk }
      lat := { s.lat with use := { s.lat.use with cntr := true, count := true } } } ∧
    s.load .owrcntr v = { s with
      seq := { s.seq with cntr := v.setWidth 14, cntrValid := true }
      lat := { s.lat with use := { s.lat.use with cntr := true } } } ∧
    (let rx (p : Sport) : Sport := { p with rx := v, expNew := p.ctl.getLsbD 5, expDue := false }
     let tx (p : Sport) : Sport := { p with tx := v, txFull := true, compNew := p.ctl.getLsbD 5, compDue := false }
     s.load .rx0 v = { s with sp0 := rx s.sp0 } ∧ s.load .tx0 v = { s with sp0 := tx s.sp0 } ∧
     s.load .rx1 v = { s with sp1 := rx s.sp1 } ∧ s.load .tx1 v = { s with sp1 := tx s.sp1 }) ∧
    ∀ r r' : Reg, r' ≠ r → (r = .d .mr1 → r' ≠ .d .mr2) → r ≠ .mstat →
      (r = .cntr ∨ r = .owrcntr → r' ≠ .cntr ∧ r' ≠ .owrcntr ∧ r' ≠ .sstat) →
      (s.load r v).bus r' = s.bus r' ∧ SameMem s (s.load r v)

/-- The TOPPCSTACK moves: the write pushes at once; the read takes the top entry, zero-extended, into the register, as any load
of it does, and leaves the pop to the end of the next instruction; nothing else changes but the PC and the latency buffers
(45_misc.md R462, R463). Away from the end of a loop. -/
def Obligations.TopPcStackMoves : Prop :=
  ∀ (r : Reg) (s : State), s.atLoopEnd = false →
    Completes (.pushTop r) s (fun t => OnlyFlow s t ∧
      t.seq = { s.seq with
        pc := s.seq.pc + 1
        pcStk := s.seq.pcStk.push pcDepth ((s.bus r).setWidth 14) }) ∧
    (r.pairsTop = true → ∀ a rest, s.seq.pcStk.entries = a :: rest → 0 < s.seq.pcStk.n → s.seq.pcStk.n ≤ 16 →
      Completes (.popTop r) s (fun t => SameMem s t ∧ SameDevices s t ∧
        t.bus r = (s.load r (a.setWidth 16)).bus r ∧
        t = { s.load r (a.setWidth 16) with
          seq := { s.seq with pc := s.seq.pc + 1 }
          lat := { (s.load r (a.setWidth 16)).lat with
            popNew := true
            use := { s.lat.use with pcStack := true, loop := true, top := true } } }))

/-- MODIFY, the word 0x090000 with G in bit 4, I in bits 3:2 and M in bits 1:0, post-modifies the I register of its DAG with the
M register and changes nothing else (45_misc.md R460). -/
def Obligations.ModifyIndex : Prop :=
  ∀ (g : Bool) (i m : BitVec 2) (s : State),
    decode (0b0000100100000000000#19 ++ BitVec.ofBool g ++ i ++ m) = .instr (.modify g i m) ∧
    Completes (.modify g i m) s (fun t => ComputeFrame s t ∧ SameMem s t ∧ t.px = s.px ∧ t.bank = s.bank ∧
      t.st.astat = s.st.astat ∧ t.dag.m = s.dag.m ∧ t.dag.l = s.dag.l ∧
      (∀ k : Fin 8, k ≠ dagNo g i → t.dag.i[k] = s.dag.i[k]) ∧
      t.dag.i[dagNo g i] =
        nextAddr (Config.free 14 s.freeCtr .nextAddr (dagNo g i).val) s.dag.i[dagNo g i] s.dag.m[dagNo g m]
          s.dag.l[dagNo g i])

/-- The next address: with L = 0 the sum modulo 2^14; else, for |M| < L and I inside the buffer at the multiple of 2^n below
I, 2^(n-1) < L ≤ 2^n, the sum taken round the buffer; `free` is the value of the other cases. With BIT_REV set the address
DAG1 puts out is the I register with its 14 bits in reverse order; DAG2's is the register itself (20_memory.md R120, R121,
R122). -/
def Obligations.AddressGenerators : Prop :=
  ∀ (free i m l : Addr),
    (l = 0 → nextAddr free i m l = i + m) ∧
    (∀ n : Nat, l.toNat ≤ 2 ^ n → 2 ^ n < 2 * l.toNat →
      let base := i.toNat / 2 ^ n * 2 ^ n
      m.toInt < l.toNat → -(l.toNat : Int) < m.toInt → i.toNat < base + l.toNat →
      ((nextAddr free i m l).toNat : Int) = base + (i.toNat - base + m.toInt) % l.toNat) ∧
    ∀ (s : State) (k : Fin 8) (b : Nat), b < 14 →
      (s.dagAddr k).getLsbD b =
        if s.bitRev && decide (k.val < 4) then s.dag.i[k].getLsbD (13 - b) else s.dag.i[k].getLsbD b

/-- An I/O write, the word 0x018000 with the address in bits 14:4 and the register in bits 3:0, delivers the register's
value at the address the board sees and changes nothing else. That in Host Memory Mode the board sees A0 alone is the model's
choice (notes/assumptions/33.md) (43_move.md R372; 20_memory.md R103, R118). -/
def Obligations.IoWrite : Prop :=
  ∀ (a : BitVec 11) (d : Dreg) (s : State),
    decode (0b000000011#9 ++ a ++ BitVec.ofNat 4 d.code) = .instr (.ioWrite a d) ∧
    Completes (.ioWrite a d) s (fun t => SameFlow s t ∧
      t = { s with seq := t.seq, lat := t.lat, io := t.io } ∧ t.io.present = s.io.present ∧
      t.io.out = ((if s.hostMode then a &&& 1 else a), s.bank.dreg d) :: s.io.out)

/-! ### Program flow -/

/-- JUMP in its three forms: taken it only sets the PC. CALL in its three forms: taken it pushes the address after the call on the
PC stack and sets the PC, the I register of the indirect form not being modified. Not taken, each is a NOP. With
System Control bit 10 clear FLAG_IN is the sample of the FI pin; what it is otherwise is open (notes/assumptions/16.md)
(44_program_flow.md R404 to R407, R410; 61_peripherals.md R650). -/
def Obligations.JumpsAndCalls : Prop :=
  ∀ (a : Addr) (i : BitVec 2) (c : Cond) (fic : Bool) (s : State),
    let goes (j : Instr) (tgt : Addr) : Prop := exec j s = .next { s with seq := { s.seq with pc := tgt } }
    let calls (j : Instr) (tgt : Addr) : Prop :=
      Completes j s (fun t => OnlyFlow s t ∧
        t.seq = { s.seq with pc := tgt, pcStk := s.seq.pcStk.push pcDepth (s.seq.pc + 1) })
    (c ≠ .notCe → s.cond c = true → goes (.jump a c) a ∧ goes (.jumpInd i c) s.dag.i[dagNo true i]) ∧
    (c ≠ .notCe → s.cond c = false → exec (.jump a c) s = exec .nop s ∧ exec (.jumpInd i c) s = exec .nop s) ∧
    (c ≠ .notCe ∨ s.cfg.callNotCeCounts = false →
      (s.cond c = true → calls (.call a c) a ∧ calls (.callInd i c) s.dag.i[dagNo true i]) ∧
      (s.cond c = false → exec (.call a c) s = exec .nop s ∧ exec (.callInd i c) s = exec .nop s)) ∧
    (s.ctl.sysCtl.getLsbD 10 = false → s.fi = s.flags.fi) ∧
    (s.fi = fic → goes (.jumpFlagIn a fic) a ∧ calls (.callFlagIn a fic) a) ∧
    (s.fi ≠ fic → exec (.jumpFlagIn a fic) s = exec .nop s ∧ exec (.callFlagIn a fic) s = exec .nop s)

/-- `IF NOT CE JUMP` and, where CALL_NOT_CE_DECREMENTS is set, `IF NOT CE CALL` count: taken while CNTR is not 1, CNTR then
falling by one; not taken when it is 1, CNTR then taking the top of the count stack and being valid. Where that is empty CNTR
becomes 0 and invalid; the 0 is the model's choice, as it is the spec's (notes/assumptions/30.md) (44_program_flow.md R404,
R406, R412; 10_state.md R73; 92_eei_decisions.md D27). -/
def Obligations.CountingTransfers : Prop :=
  ∀ (a : Addr) (i : BitVec 2) (s : State),
    let less := { s.seq with cntr := s.seq.cntr - 1 }
    let calls (j : Instr) (tgt : Addr) : Prop :=
      Completes j s (fun t => OnlyFlow s t ∧
        t.seq = { less with pc := tgt, pcStk := s.seq.pcStk.push pcDepth (s.seq.pc + 1) })
    let expires (j : Instr) : Prop :=
      (s.seq.cntStk.n ≤ 0 → Completes j s (fun t => OnlyFlow s t ∧
        t.seq = { s.seq with pc := s.seq.pc + 1, cntr := 0, cntrValid := false })) ∧
      (∀ v rest, s.seq.cntStk.entries = v :: rest → 0 < s.seq.cntStk.n → s.seq.cntStk.n ≤ 4 →
        Completes j s (fun t => OnlyFlow s t ∧
          t.seq = { s.seq with
            pc := s.seq.pc + 1
            cntr := v
            cntrValid := true
            cntStk := { s.seq.cntStk with entries := rest, n := s.seq.cntStk.n - 1, flip := false } }))
    (s.seq.cntr ≠ 1 →
      Completes (.jump a .notCe) s (fun t => OnlyFlow s t ∧ t.seq = { less with pc := a }) ∧
      Completes (.jumpInd i .notCe) s (fun t => OnlyFlow s t ∧ t.seq = { less with pc := s.dag.i[dagNo true i] }) ∧
      (s.cfg.callNotCeCounts = true → calls (.call a .notCe) a ∧ calls (.callInd i .notCe) s.dag.i[dagNo true i])) ∧
    (s.seq.cntr = 1 → s.atLoopEnd = false →
      expires (.jump a .notCe) ∧ expires (.jumpInd i .notCe) ∧
      (s.cfg.callNotCeCounts = true → expires (.call a .notCe) ∧ expires (.callInd i .notCe)))

/-- RTS with a true condition: the PC takes the top of the PC stack, which is popped, and nothing else changes; RTI takes
ASTAT, MSTAT and IMASK from the status stack as well and ends a powerdown sequence in progress; on an empty stack both complete
with the value open; with a false condition they are NOPs (44_program_flow.md R408, R409; 10_state.md R66; 60_exceptions.md
R546; 61_peripherals.md R644). -/
def Obligations.Returns : Prop :=
  ∀ (c : Cond) (s : State),
    (s.cond c = true →
      Completes (.rts c) s (fun t => OnlyFlow s t ∧
        t.seq = { s.seq with pc := t.seq.pc, pcStk := s.seq.pcStk.pop pcDepth } ∧
        ∀ a rest, s.seq.pcStk.entries = a :: rest → 0 < s.seq.pcStk.n → s.seq.pcStk.n ≤ 16 →
          t.seq.pc = a ∧ t.seq.pcStk.entries = rest) ∧
      Completes (.rti c) s (fun t =>
        t = { s with seq := t.seq, lat := t.lat, st := t.st, irq := { s.irq with pdSeq := false } } ∧
        t.seq = { s.seq with
          pc := t.seq.pc
          pcStk := s.seq.pcStk.pop pcDepth
          stsStk := s.seq.stsStk.pop s.cfg.stsDepth } ∧
        t.st = { s.st with astat := t.st.astat, mstat := t.st.mstat, imask := t.st.imask } ∧
        (∀ a rest, s.seq.pcStk.entries = a :: rest → 0 < s.seq.pcStk.n → s.seq.pcStk.n ≤ 16 → t.seq.pc = a) ∧
        (∀ e rest, s.seq.stsStk.entries = e :: rest → 0 < s.seq.stsStk.n → s.seq.stsStk.n ≤ s.cfg.stsDepth →
          t.st.astat = e.astat ∧ t.st.mstat = e.mstat ∧ t.st.imask = e.imask))) ∧
    (s.cond c = false → exec (.rts c) s = exec .nop s ∧ exec (.rti c) s = exec .nop s)

/-- DO UNTIL pushes the last address with the termination condition on the loop stack, and the address after it on the PC stack;
with either stack full it sets the overflow bits of the full ones and does nothing else. The first body address kept in the loop
entry is the model's own (notes/assumptions/5.md) (44_program_flow.md R420; 10_state.md R62, R65). -/
def Obligations.DoUntil : Prop :=
  ∀ (a : Addr) (term : Term) (s : State),
    Completes (.doUntil a term) s (fun t => OnlyFlow s t ∧ (s.atLoopEnd = false →
      if 4 ≤ s.seq.loopStk.n ∨ 16 ≤ s.seq.pcStk.n then
        t.seq = { s.seq with
          pc := s.seq.pc + 1
          loopStk := { s.seq.loopStk with ovf := s.seq.loopStk.ovf || decide (4 ≤ s.seq.loopStk.n) }
          pcStk := { s.seq.pcStk with ovf := s.seq.pcStk.ovf || decide (16 ≤ s.seq.pcStk.n) } }
      else
        t.seq = { s.seq with
          pc := s.seq.pc + 1
          loopStk := s.seq.loopStk.push loopDepth { last := a, term := term, first := s.seq.pc + 1 }
          pcStk := s.seq.pcStk.push pcDepth (s.seq.pc + 1) }))

/-- The end of a loop, at a plain last instruction: a counted loop goes back to the top and counts until CNTR is 1, then it
falls out, popping the loop and the PC stack and restoring the counter, valid, from the count stack. Where that is empty CNTR
becomes 0 and invalid; the 0 is the model's choice, as it is the spec's (notes/assumptions/30.md). A loop of another
termination code tests its condition on the ASTAT of the start of the instruction, and forever never ends (44_program_flow.md
R412, R421; 10_state.md R73; 30_encoding.md R177). -/
def Obligations.LoopEnd : Prop :=
  ∀ s : State, s.atLoopEnd = true → s.lat.use = Use.none →
    let back := { s.seq with pc := s.topPc }
    let out := { s.seq with
      pc := s.seq.pc + 1
      loopStk := s.seq.loopStk.pop loopDepth
      pcStk := s.seq.pcStk.pop pcDepth }
    let a := s.st.astat
    Completes .nop s (fun t => OnlyFlow s t ∧
      (s.topLoop.term = .ce → s.seq.cntr ≠ 1 → t.seq = { back with cntr := s.seq.cntr - 1 }) ∧
      (s.topLoop.term = .ce → s.seq.cntr = 1 → s.seq.cntStk.n ≤ 0 →
        t.seq = { out with cntr := 0, cntrValid := false }) ∧
      (∀ v rest, s.topLoop.term = .ce → s.seq.cntr = 1 → s.seq.cntStk.entries = v :: rest → 0 < s.seq.cntStk.n →
        s.seq.cntStk.n ≤ 4 →
        t.seq = { out with
          cntr := v
          cntrValid := true
          cntStk := { s.seq.cntStk with entries := rest, n := s.seq.cntStk.n - 1, flip := false } }) ∧
      (s.topLoop.term ≠ .ce →
        let ends : Bool :=
          match s.topLoop.term with
          | .ne => !astatAZ a
          | .eq => astatAZ a
          | .le => (astatAN a != astatAV a) || astatAZ a
          | .gt => (astatAN a == astatAV a) && !astatAZ a
          | .ge => astatAN a == astatAV a
          | .lt => astatAN a != astatAV a
          | .notAv => !astatAV a
          | .av => astatAV a
          | .notAc => !astatAC a
          | .ac => astatAC a
          | .pos => !astatAS a
          | .neg => astatAS a
          | .notMv => !astatMV a
          | .mv => astatMV a
          | .ce => false
          | .forever => false
        t.seq = if ends then out else back))

/-- Every hardware stack, whatever its entries: a push below the depth is undone by a pop, and its value is the top; a push on a
full stack loses the value and sets the overflow bit, which no pop clears; a pop of an empty stack keeps it empty. SSTAT is made of
the empty and the overflow bits of the PC, count, status and loop stacks, from bit 0 up. `flip`, the model's own, is set where the
spec leaves SSTAT open and inverts the empty bit until the next push or pop (notes/assumptions/19.md) (10_state.md R33, R64, R65,
R66). -/
def Obligations.StackLaws : Prop :=
  (∀ (α : Type) (k : Stack α) (d : Nat) (v f : α),
    (0 ≤ k.n → k.n < d → (k.push d v).top d f = v ∧ (k.push d v).pop d = { k with flip := false }) ∧
    (0 ≤ k.n → (d : Int) ≤ k.n → (k.push d v).entries = k.entries ∧ (k.push d v).ovf = true ∧
      (k.push d v).top d f = f ∧ ((k.push d v).pop d).entries = k.entries) ∧
    (k.pop d).ovf = k.ovf ∧ (k.pop d).flip = false ∧ (k.push d v).flip = false ∧
    (k.isEmpty = true → (k.pop d).isEmpty = true ∧ (k.pop d).entries = k.entries ∧ k.top d f = f)) ∧
  ∀ s : State,
    s.sstat.getLsbD 0 = (decide (s.seq.pcStk.n ≤ 0) != s.seq.pcStk.flip) ∧ s.sstat.getLsbD 1 = s.seq.pcStk.ovf ∧
    s.sstat.getLsbD 2 = (decide (s.seq.cntStk.n ≤ 0) != s.seq.cntStk.flip) ∧ s.sstat.getLsbD 3 = s.seq.cntStk.ovf ∧
    s.sstat.getLsbD 4 = (decide (s.seq.stsStk.n ≤ 0) != s.seq.stsStk.flip) ∧ s.sstat.getLsbD 5 = s.seq.stsStk.ovf ∧
    s.sstat.getLsbD 6 = (decide (s.seq.loopStk.n ≤ 0) != s.seq.loopStk.flip) ∧ s.sstat.getLsbD 7 = s.seq.loopStk.ovf

/-- IDLE and IDLE (n): the core waits at the next address, or is powered down when a powerdown sequence is in progress and the
PWD pin is low or PDFORCE started it. Powering down under an active BDMA transfer is the one case refused, as U52 says
(notes/assumptions/28.md) (44_program_flow.md R430; 61_peripherals.md R640, R641 (e); 93_implementation_defined.md U52). -/
def Obligations.IdleInstructions : Prop :=
  ∀ (n : SlowDiv) (s : State),
    let goes (j : Instr) (c : CoreState) : Prop :=
      exec j s = .next { s with seq := { s.seq with pc := s.seq.pc + 1 }, core := c }
    if s.irq.pdSeq = true ∧ (s.irq.pwdPin = false ∨ s.irq.pdForced = true) then
      if s.bdma.active then
        exec .idle s = .refused .powerdownDuringBdma ∧ exec (.idleSlow n) s = .refused .powerdownDuringBdma
      else goes .idle .powerDown ∧ goes (.idleSlow n) .powerDown
    else
      goes .idle (.idle 1) ∧ goes (.idleSlow n) (.idle (slowDivisor n)) ∧
        slowDivisor n = (match n with | .by16 => 16 | .by32 => 32 | .by64 => 64 | .by128 => 128)

/-! ### Stack control, modes and flags -/

/-- Stack control: each clause works on its own stack and nothing else changes; POP STS also restores ASTAT, MSTAT and
IMASK, POP CNTR loads CNTR (45_misc.md R450 to R454, R456). Away from the end of a loop. -/
def Obligations.StackControl : Prop :=
  ∀ (iq pp lp cp : Bool) (op : StsOp) (s : State),
    Completes (.stackControl iq pp lp cp op) s (fun t =>
      t = { s with seq := t.seq, lat := t.lat, st := t.st } ∧
      (op ≠ .pop → t.st = s.st) ∧
      (op = .pop → t.st = { s.st with astat := s.topSts.astat, mstat := s.topSts.mstat, imask := s.topSts.imask }) ∧
      (s.atLoopEnd = false →
        t.seq = { s.seq with
          pc := s.seq.pc + 1
          pcStk := if pp then s.seq.pcStk.pop pcDepth else s.seq.pcStk
          loopStk := if lp then s.seq.loopStk.pop loopDepth else s.seq.loopStk
          cntStk := if cp then s.seq.cntStk.pop cntDepth else s.seq.cntStk
          cntr := if cp then s.seq.cntStk.top cntDepth (Config.free 14 s.freeCtr .cntrPop 0) else s.seq.cntr
          cntrValid := cp || s.seq.cntrValid
          stsStk := match op with
            | .push => s.seq.stsStk.push s.cfg.stsDepth
                { astat := s.st.astat, mstat := s.st.mstat, imask := s.st.imask }
            | .pop => s.seq.stsStk.pop s.cfg.stsDepth
            | _ => s.seq.stsStk }))

/-- Mode control: each pair sets, clears or keeps its bit of MSTAT. ENA INTS, the word 0x040060, sets the interrupt enable and DIS
INTS, the word 0x040040, clears it; IMASK and the requests stay. The flag outputs follow their codes. NOP, and a Type 9 word without
a function, only advance. Nothing else changes (45_misc.md R455, R457 to R459, R461; 10_state.md R32, R37; 30_encoding.md
R169). -/
def Obligations.ModesAndFlags : Prop :=
  decode 0x040060 = .instr .enaInts ∧ decode 0x040040 = .instr .disInts ∧
  ∀ (s : State),
    (∀ b : Bool, Completes (if b then .enaInts else .disInts) s (fun t => SameFlow s t ∧
      t = { s with seq := t.seq, lat := t.lat, st := { s.st with intEnable := b } })) ∧
    (∀ tim mac sat ovl rev sec go : ModeOp,
      let becomes (op : ModeOp) (old : Bool) : Bool :=
        match op with
        | .disable => false
        | .enable => true
        | _ => old
      Completes (.modeControl tim mac sat ovl rev sec go) s (fun t => SameFlow s t ∧
        t = { s with seq := t.seq, lat := t.lat, st := { s.st with mstat := t.st.mstat } } ∧
        t.secReg = becomes sec s.secReg ∧ t.bitRev = becomes rev s.bitRev ∧ t.avLatch = becomes ovl s.avLatch ∧
        t.arSat = becomes sat s.arSat ∧ t.mMode = becomes mac s.mMode ∧ t.timerOn = becomes tim s.timerOn ∧
        t.goMode = becomes go s.goMode)) ∧
    (∀ (f2 f1 f0 fo : FlagOp) (c : Cond), s.cond c = true →
      let becomes (op : FlagOp) (old : Bool) : Bool :=
        match op with
        | .keep => old
        | .toggle => !old
        | .reset => false
        | .set => true
      Completes (.flagOut f2 f1 f0 fo c) s (fun t => SameFlow s t ∧
        t = { s with seq := t.seq, lat := t.lat, flags := { s.flags with
          fl2 := becomes f2 s.flags.fl2
          fl1 := becomes f1 s.flags.fl1
          fl0 := becomes f0 s.flags.fl0
          fo := becomes fo s.flags.fo } })) ∧
    Completes .nop s (fun t => OnlyFlow s t ∧ SameFlow s t) ∧
    ∀ c, Completes (.condNop c) s (fun t => OnlyFlow s t ∧ SameFlow s t)

/-! ### Interrupts -/

/-- Taking an interrupt: a delayed pop that is due is done first, the PC and the status are pushed, IMASK is reloaded, the
request is cleared and the PC goes to the source's vector; an idle core runs. The vectors are those of R521's table, against
R622, C2 and C5, the model's choice (notes/assumptions/29.md). IMASK 0 on powerdown entry, for which the source's table has no
row, is the spec's own decision D34 (notes/assumptions/44.md), and that a due pop is done first its decision D31. The word at the
vector is fetched in the same cycle, as BoundaryPriority says (60_exceptions.md R521, R540, R542; 92_eei_decisions.md D31, D34). -/
def Obligations.InterruptEntry : Prop :=
  ∀ (s : State) (x : Source),
    let t := s.takeInterrupt x
    t.lat.popDue = false ∧
    t = { s with seq := t.seq, st := { s.st with imask := t.st.imask }, irq := t.irq, core := .running, lat := t.lat } ∧
    t.seq = { s.seq with
      pc := t.seq.pc
      pcStk := (if s.lat.popDue then s.seq.pcStk.pop pcDepth else s.seq.pcStk).push pcDepth s.seq.pc
      stsStk := s.seq.stsStk.push s.cfg.stsDepth { astat := s.st.astat, mstat := s.st.mstat, imask := s.st.imask }
      prefetch := none } ∧
    (match x with
      | .powerdown => t.seq.pc = 0x2C ∧ t.st.imask = 0 ∧ t.irq = { s.irq with latchPwd := false, pdSeq := true }
      | .level k =>
        t.seq.pc.toNat = [0x28, 0x24, 0x20, 0x1C, 0x18, 0x14, 0x10, 0x0C, 0x08, 0x04].getD k.val 0 ∧
        (∀ j, t.st.imask.getLsbD j = (s.lat.icntlEff.getLsbD 4 && s.st.imask.getLsbD j && decide (k.val < j))) ∧
        t.irq = { s.irq with latch := t.irq.latch } ∧
        ∀ j, t.irq.latch.getLsbD j = (s.irq.latch.getLsbD j && !(s.isEdge k.val && decide (j = k.val))))

/-- Requests, and the interrupt taken at a boundary. None is taken while interrupts are disabled or held off after an IMASK write;
powerdown comes before all levels; else the highest level that is unmasked and pending. A latched level is pending by its request,
level 0, the timer, not before the two cycles of synchronisation of its request are over; a level-sensitive one by its pin. The
internal levels and IRQE are latched, IRQL0 and IRQL1 are level-sensitive, IRQ2, IRQ1 and IRQ0 are as the ICNTL in use says, the
last two latched while SPORT1 is a serial port. A pin that takes a level records it, and a falling edge of an edge-sensitive pin
sets its latch; a falling edge of PWD requests powerdown; in reset no edge is taken. A rising edge of PWD ends powerdown: the core
runs on, after a context reset where PUCR is 1, and a bus request made meanwhile is granted. That the synchronisation is over after
two cycles and no more, that the pin's edge takes a sequence from PDFORCE, that R691 decides for reset, and, from general knowledge,
the bits of ICNTL are the model's choice (notes/assumptions/50.md, 38.md, 46.md, 32.md) (60_exceptions.md R521, R522, R523, R524,
R525, R541, R543, R545, R550, R561; 61_peripherals.md R641, R642; 70_reset_and_hazards.md R691). -/
def Obligations.InterruptChoice : Prop :=
  (∀ (s : State) (k : Fin 10),
    (s.interrupt = some .powerdown ↔ s.st.intEnable = true ∧ s.lat.imaskHold = false ∧ s.irq.latchPwd = true) ∧
    (s.interrupt = some (.level k) ↔
      s.st.intEnable = true ∧ s.lat.imaskHold = false ∧ s.irq.latchPwd = false ∧
      s.st.imask.getLsbD k.val = true ∧ s.pending k.val = true ∧
      ∀ j : Fin 10, k < j → ¬(s.st.imask.getLsbD j.val = true ∧ s.pending j.val = true)) ∧
    (s.isEdge k.val = true → k ≠ 0 → s.pending k.val = s.irq.latch.getLsbD k.val) ∧
    (s.isEdge k.val = false → s.pending k.val = !s.irq.pins.getLsbD k.val) ∧
    (s.pending 0 = true ↔ s.irq.latch.getLsbD 0 = true ∧ s.irq.timerWait = 0) ∧
    s.isEdge k.val =
      match k.val with
      | 9 => s.lat.icntlEff.getLsbD 2
      | 8 => false
      | 7 => false
      | 2 => s.ctl.sysCtl.getLsbD 10 || s.lat.icntlEff.getLsbD 1
      | 1 => s.ctl.sysCtl.getLsbD 10 || s.lat.icntlEff.getLsbD 0
      | _ => true) ∧
  (∀ (s : State) (k : Fin 10) (high : Bool) (rest : List Event), s.env = .irqPin k high :: rest →
    let isPin : Prop := k.val ∈ [1, 2, 4, 7, 8, 9]
    let latched : Prop := s.isEdge k.val = true ∧ ¬(k.val ∈ [1, 2] ∧ s.ctl.sysCtl.getLsbD 10 = true) ∧ s.core ≠ .inReset
    ∃ t, step s = .next t ∧
      t = { s with env := rest, freeCtr := s.freeCtr + 1, irq := { s.irq with pins := t.irq.pins, latch := t.irq.latch } } ∧
      ∀ j : Fin 10,
        t.irq.pins.getLsbD j.val = (if isPin ∧ j = k then high else s.irq.pins.getLsbD j.val) ∧
        (t.irq.latch.getLsbD j.val = true ↔ s.irq.latch.getLsbD j.val = true ∨
          (isPin ∧ j = k ∧ latched ∧ s.irq.pins.getLsbD k.val = true ∧ high = false))) ∧
  ∀ (s : State) (high : Bool) (rest : List Event), s.env = .pwdPin high :: rest →
    let falls : Bool := s.irq.pwdPin && !high && s.core != .inReset
    let u : State := { s with
      env := rest
      freeCtr := s.freeCtr + 1
      irq := { s.irq with
        pwdPin := high, latchPwd := s.irq.latchPwd || falls, pdForced := s.irq.pdForced && !falls } }
    if s.irq.pwdPin = false ∧ high = true ∧ s.core = .powerDown then
      if s.sp1.auto.getLsbD 12 then step s = .next { u.contextReset with bg := s.br }
      else step s = .next { u with core := .running, irq := { u.irq with pdSeq := false }, bg := s.br }
    else step s = .next u

/-- An interrupt entry and an RTI directly after it give back the PC, the stacks, ASTAT, MSTAT and IMASK, and every register and
all of memory are as they were, while neither stack overflows; `flip` of the two stacks, the model's own, is cleared
(60_exceptions.md R540, R546; 44_program_flow.md R409). -/
def Obligations.EntryThenReturn : Prop :=
  ∀ (s : State) (x : Source), s.lat.popDue = false → 0 ≤ s.seq.pcStk.n → s.seq.pcStk.n < 16 → 0 ≤ s.seq.stsStk.n →
    s.seq.stsStk.n < s.cfg.stsDepth →
    Completes (.rti .always) (s.takeInterrupt x) (fun t =>
      t.seq = { s.seq with
        pcStk := { s.seq.pcStk with flip := false }
        stsStk := { s.seq.stsStk with flip := false }
        prefetch := none } ∧ t.st = s.st ∧ t.pri = s.pri ∧ t.sec = s.sec ∧ t.dag = s.dag ∧
      t.px = s.px ∧ t.mem = s.mem)

/-- The end of a cycle, of a cycle that leaves `t`: an IFC command is carried out at the end of the instruction after the one
that wrote it, level by level, a force winning over a clear, level-sensitive inputs not affected, both the spec's own decision
D33 (notes/assumptions/39.md); ICNTL, PDFORCE and the delayed pop take effect as late, and an IMASK write holds interrupts off
for as long. The three words say what each write notes. Of the levels whose sensitivity an ICNTL write changes nothing is said
(notes/assumptions/17.md), nor of level 0 while the timer runs. The order of the bits of IFC and the levels of ICNTL's, from
general knowledge, are the model's choice (notes/assumptions/32.md) (10_state.md R36, R72; 60_exceptions.md R525, R526, R550;
92_eei_decisions.md D33). -/
def Obligations.OneCycleActions : Prop :=
  (∀ (s : State) (v : Word),
    (s.load .ifc v).lat.ifcNew = v ∧ (s.load .ifc v).irq = s.irq ∧
    (s.load .icntl v).st.icntl = v.setWidth 5 ∧ (s.load .icntl v).lat = s.lat ∧
    (s.load .imask v).lat.imaskNew = true ∧ (s.writeMmr 15 v).lat.pdNew = (s.lat.pdNew || v.getLsbD 13)) ∧
  ∀ (s t : State) (n : Nat),
    let u := s.endCycle t n
    u.lat.ifcDue = t.lat.ifcNew ∧ u.lat.ifcNew = 0 ∧ u.lat.icntlEff = s.st.icntl ∧
    u.lat.imaskHold = t.lat.imaskNew ∧ u.lat.imaskNew = false ∧ u.lat.popDue = t.lat.popNew ∧
    u.lat.pdDue = t.lat.pdNew ∧ u.irq.latchPwd = (t.irq.latchPwd || t.lat.pdDue) ∧
    ∀ j, s.st.icntl = t.lat.icntlEff ∨ j ∉ [1, 2, 9] → j ≠ 0 ∨ s.timerOn = false →
      let k := if j = 9 then 7 else j
      u.irq.latch.getLsbD j =
        if (j < 7 ∨ j = 9) ∧ t.isEdge j = true then
          t.lat.ifcDue.getLsbD (k + 8) || (t.irq.latch.getLsbD j && !t.lat.ifcDue.getLsbD k)
        else t.irq.latch.getLsbD j

/-! ### Devices -/

/-- The timer interrupts every (TPERIOD + 1) * (TSCALE + 1) ticks: from a count just reloaded, no tick before the last requests
the interrupt, and the last one does, two cycles before it may be taken, and reloads the count. Which cycles tick, and that the
synchronisation takes two and no more, is the model's choice (notes/assumptions/8.md, 50.md) (60_exceptions.md R560, R561,
R562). -/
def Obligations.TimerPeriod : Prop :=
  ∀ (s : State), s.timer.tps = 0 → s.timer.tcount = s.timer.tperiod → s.irq.latch.getLsbD 0 = false →
    s.lat.tcountSet = false →
    let ticks (n : Nat) : State := Nat.repeat (fun t : State => t.timerTick t.timer.tcount) n s
    let period := (s.timer.tperiod.toNat + 1) * (s.timer.tscale.toNat + 1)
    (∀ n, n < period → (ticks n).irq.latch.getLsbD 0 = false) ∧
    (ticks period).irq.latch.getLsbD 0 = true ∧ (ticks period).irq.timerWait = 2 ∧ (ticks period).timer = s.timer

/-- Memory-mapped registers keep what is written, in the bits that are not reserved: IDMA Control, BIAD and BEAD while no
transfer runs, BDMA Control, BWCOUNT, which also starts a transfer, Programmable Flag and Composite Select Control, IDMA
Overlay, the autobuffer, divide and control registers of both ports, the multichannel enables, the timer, Wait State and System
Control; PDFORCE reads as 0 unless it was last written 1, when it is open; the Programmable Flag Data read as written where a
pin is an output and as the pin where it is an input. Writing one leaves every other as it reads, but that pin directions
decide what the flag data read, and that BIAD and BEAD are open when either is written during a transfer. That the upper bits
of BWCOUNT and of the flag data read as 0 is the model's choice (notes/assumptions/15.md); so are, from general knowledge, the
addresses of BIAD, BEAD, BDMA Control, the flag data and the flag control register and the bits of the last two
(notes/assumptions/32.md) (10_state.md R41 to R56; 61_peripherals.md R611, R652). -/
def Obligations.ControlRegisterReadBack : Prop :=
  ∀ (s : State) (v : Word),
    let ovl := s.cfg.member.hasIdmaOvl
    let mn := s.cfg.member.isMN
    let keeps (k : Nat) (mask : Word) : Prop := (s.writeMmr k v).readMmr k &&& mask = v &&& mask
    (∀ k ∈ [16, 17, 20, 21, 22, 23, 24, 25, 26, 28, 29], (s.writeMmr k v).readMmr k = v) ∧
    keeps 0 0x7FFF ∧ (s.bdma.active = false → keeps 1 0x3FFF ∧ keeps 2 0x3FFF) ∧
    keeps 3 (if ovl then 0xFFFF else 0xFF0F) ∧
    ((s.writeMmr 4 v).readMmr 4 = v &&& 0x3FFF ∧ (s.writeMmr 4 v).bdma.active = true) ∧
    (s.writeMmr 5 v).readMmr 5 = (s.ctl.pfCtl &&& v ||| ~~~s.ctl.pfCtl &&& s.flags.pfIn.setWidth 16) &&& 0x00FF ∧
    keeps 6 (if mn then 0xFFFF else 0x7FFF) ∧
    (ovl = true → keeps 7 (if mn then 0x40FF else 0x00FF) ∧ ((s.writeMmr 7 v).readMmr 7).getLsbD 15 = false) ∧
    keeps 15 0xDFFF ∧ (v.getLsbD 13 = false → (s.writeMmr 15 v).readMmr 15 = v) ∧ keeps 18 0x7FFF ∧ ((s.writeMmr 18 v).readMmr 18).getLsbD 15 = s.flags.fo ∧ keeps 19 0x5FFF ∧
    keeps 27 0x00FF ∧ keeps 30 (if mn then 0xFFFF else 0x7FFF) ∧
    keeps 31 (if s.cfg.member.hasBmsDisable then 0x1C0F else 0x1C07) ∧
    ∀ k j, j ≠ k → (k = 6 → j ≠ 5) → (s.bdma.active = true → k = 1 ∨ k = 2 → j ≠ 1 ∧ j ≠ 2) →
      (s.writeMmr k v).readMmr j = s.readMmr j

/-- A serial word received: RX takes the low SLEN + 1 bits, right-justified, zero-filled or sign-extended as DTYPE says, or,
with companding, expanded from the low eight of them; the expansion takes the circuit of its cycle; the receiver's interrupt is
requested, or with RBUF the autobuffer transfer; nothing else changes. In a word slot of a multichannel block of 24 or 32 the
word counter moves on, a word is received where the slot is enabled for receive and taken from TX where it is enabled for
transmit, each as outside a block; after the last slot nothing happens, and a frame sync starts the count again. Where the
control register of an enabled port is written with another format or framing under a word that has begun to arrive, that word
is any value, and the words after it follow the new setting; that every field but ISCLK counts as one of these is the model's
reading (notes/assumptions/37.md). That a slot that finds TX's compression pending passes is the model's choice
(notes/assumptions/51.md). That an expansion still due of a value written to RX is dropped is the model's choice
(notes/assumptions/53.md). Which of the two DTYPE codes fills with zeros, and which law is which, is the model's choice, from
general knowledge (notes/assumptions/32.md) (62_serial_ports.md R584, R587, R590, R593, R594, R596, R601, R602; 10_state.md
R45, R47; 93_implementation_defined.md U61). -/
def Obligations.SerialReceive : Prop :=
  let received (p : Sport) (w : Word) (q : Sport) : Prop :=
    let low : Word := BitVec.ofNat 16 (w.toNat % 2 ^ p.len)
    q.rsr = low ∧
    (p.companding = false → ∀ k, k < 16 →
      q.rx.getLsbD k = if k < p.len then w.getLsbD k else p.aLaw && w.getLsbD (p.len - 1)) ∧
    (p.companding = true →
      q.rx = if p.aLaw then expandA (low.setWidth 8) else expandMu (low.setWidth 8))
  (∀ (n : Fin 2) (w : Word) (s : State), s.serialActive n = true → (n = 0 → s.mce = false) →
    (s.sport n).badLen = false →
    let p := s.sport n
    ∃ t, s.sportRxEvent n w = .next t ∧
      t = { s with sp0 := t.sp0, sp1 := t.sp1, irq := { s.irq with latch := t.irq.latch } } ∧
      (∀ m, m ≠ n → t.sport m = s.sport m) ∧
      t.sport n = { p with
        rx := (t.sport n).rx
        rsr := (t.sport n).rsr
        transit := .idle
        expNew := false
        expDue := false
        expBusy := p.expBusy || p.companding
        rxReq := p.rxReq || p.rbuf } ∧
      (p.transit ≠ .mixed → received p w (t.sport n)) ∧
      ∀ k, t.irq.latch.getLsbD k = (s.irq.latch.getLsbD k || (!p.rbuf && decide (k = rxLevel n)))) ∧
  (∀ (s : State) (w : Word) (rest : List Event), s.env = .mcSlot w :: rest → s.serialActive 0 = true → s.mce = true →
    s.sp0.badLen = false →
    let p := s.sp0
    let k := s.mc.slot
    let slots : Nat := if p.ctl.getLsbD 9 then 32 else 24
    let takes : Bool := s.mc.txEn.getLsbD k && !p.compNew && !p.compDue
    let gets : Bool := s.mc.rxEn.getLsbD k
    (slots ≤ k → step s = .next { s with env := rest, freeCtr := s.freeCtr + 1 }) ∧
    (k < slots → ∃ t, step s = .next t ∧
      t = { s with
        env := rest, freeCtr := s.freeCtr + 1, sp0 := t.sp0, mc := { s.mc with slot := k + 1 }
        irq := { s.irq with latch := t.irq.latch } } ∧
      t.sp0 = { p with
        rx := t.sp0.rx
        rsr := t.sp0.rsr
        transit := .idle
        expNew := p.expNew && !gets
        expDue := p.expDue && !gets
        expBusy := p.expBusy || (gets && p.companding)
        rxReq := p.rxReq || (gets && p.rbuf)
        tsr := if takes then BitVec.ofNat 16 (p.tx.toNat % 2 ^ p.len) else p.tsr
        txFull := p.txFull && !takes
        txReq := p.txReq || (takes && p.tbuf) } ∧
      (if gets then p.transit ≠ .mixed → received p w t.sp0 else t.sp0.rx = p.rx ∧ t.sp0.rsr = p.rsr) ∧
      ∀ j, t.irq.latch.getLsbD j =
        (s.irq.latch.getLsbD j || (gets && !p.rbuf && decide (j = 5)) || (takes && !p.tbuf && decide (j = 6))))) ∧
  (∀ (s : State) (rest : List Event), s.env = .mcSync :: rest → s.serialActive 0 = true → s.mce = true →
    step s = .next { s with env := rest, freeCtr := s.freeCtr + 1, mc := { s.mc with slot := 0 } }) ∧
  (∀ (n : Fin 2) (s : State) (rest : List Event), s.env = .sportRxStart n :: rest → s.serialActive n = true →
    step s = .next (State.setSport { s with env := rest, freeCtr := s.freeCtr + 1 } n
      { s.sport n with transit := .shifting })) ∧
  ∀ (s : State) (v : Word),
    let u := s.writeMmr 22 v
    let t := s.writeMmr 18 v
    let touched (n : Fin 2) (fields : Word) : Bool := s.sportOn n && (v ^^^ (s.sport n).ctl) &&& fields != 0
    let after (p : Sport) (hit : Bool) : Transit := if p.transit = .shifting ∧ hit = true then .mixed else p.transit
    (u.sp0 = { s.sp0 with ctl := v, tsr := u.sp0.tsr, transit := after s.sp0 (touched 0 0xBFFF) } ∧
      (touched 0 0xBFFF = false → u.sp0.tsr = s.sp0.tsr) ∧ u.sp1 = s.sp1) ∧
    (t.sp1 = { s.sp1 with ctl := v, tsr := t.sp1.tsr, transit := after s.sp1 (touched 1 0x3FFF) } ∧
      (touched 1 0x3FFF = false → t.sp1.tsr = s.sp1.tsr) ∧ t.sp0 = s.sp0)

/-- A serial word taken for transmission: the shift register takes the low SLEN + 1 bits of TX, TX is empty, and the transmitter's
interrupt is requested, or with TBUF the autobuffer transfer; nothing else changes. While a compression is pending, or with an
internal frame sync while TX has not been written or the core is powered down, nothing is taken (62_serial_ports.md R584, R587,
R588, R590, R593, R605; 61_peripherals.md R641). -/
def Obligations.SerialTransmit : Prop :=
  ∀ (n : Fin 2) (s : State), s.serialActive n = true → (n = 0 → s.mce = false) → (s.sport n).badLen = false →
    let p := s.sport n
    ((p.compNew = true ∨ p.compDue = true ∨ (p.itfs = true ∧ (p.txFull = false ∨ s.core = .powerDown))) →
      s.sportTxEvent n = .next s) ∧
    (p.compNew = false → p.compDue = false → (p.itfs = true → p.txFull = true ∧ s.core ≠ .powerDown) →
      ∃ t, s.sportTxEvent n = .next t ∧
        t = { s with sp0 := t.sp0, sp1 := t.sp1, irq := { s.irq with latch := t.irq.latch } } ∧
        (∀ m, m ≠ n → t.sport m = s.sport m) ∧
        t.sport n = { p with tsr := (t.sport n).tsr, txFull := false, txReq := p.txReq || p.tbuf } ∧
        (∀ k, k < 16 → (t.sport n).tsr.getLsbD k = (decide (k < p.len) && p.tx.getLsbD k)) ∧
        ∀ k, t.irq.latch.getLsbD k = (s.irq.latch.getLsbD k || (!p.tbuf && decide (k = txLevel n))))

/-- Companding in place. A write of TX or RX holds the value, and at the end of the next instruction the value is compressed or
expanded, once: at the end of the writing instruction it stands as written, and a second write starts over, the model's choice
where the first step is still due (notes/assumptions/53.md). TX then holds the code in its low eight bits, its sign above it up
to the word length, the bits above that being open; RX holds the expansion of its low eight bits. SPORT1 waits while SPORT0
uses the circuit, for a received word too, and does its step in the next cycle in which it is free. Without companding the
value stays. A register read before any cycle has ended gives what was written. The laws take a code to a value that gives the
code back, mu-law's negative zero apart; the laws themselves, from general knowledge, and DTYPE's codes are the model's choice
(notes/assumptions/31.md, 32.md) (62_serial_ports.md R587, R591, R592, R593; 43_move.md R373, R374). -/
def Obligations.Companding : Prop :=
  (∀ (s : State) (v : Word), (s.load .tx0 v).bus .tx0 = v ∧ (s.load .tx1 v).bus .tx1 = v ∧
    (s.load .rx0 v).bus .rx0 = v ∧ (s.load .rx1 v).bus .rx1 = v ∧
    (s.load .tx0 v).sp0.txFull = true ∧ (s.load .tx1 v).sp1.txFull = true) ∧
  (∀ (p : Sport) (v f g : Word),
    let a := (p.writeTx v).compandStep true true f
    let b := a.compandStep true true g
    let c := (p.writeRx v).compandStep true true f
    let d := c.compandStep true true g
    let code := if p.aLaw then compressA v else compressMu v
    a.tx = v ∧ c.rx = v ∧ b.compDue = false ∧ b.compNew = false ∧ d.expDue = false ∧ d.expNew = false ∧
    (p.companding = false → b.tx = v ∧ d.rx = v) ∧
    (p.companding = true →
      (∀ k, k < 8 → b.tx.getLsbD k = code.getLsbD k) ∧
      (∀ k, 8 ≤ k → k < p.len → b.tx.getLsbD k = code.getLsbD 7) ∧
      d.rx = if p.aLaw then expandA (v.setWidth 8) else expandMu (v.setWidth 8))) ∧
  (∀ s : State,
    (s.sp0.compDue = true → s.compandStep.sp1.tx = s.sp1.tx ∧
      s.compandStep.sp1.compDue = (s.sp1.compDue || s.sp1.compNew)) ∧
    (s.sp0.expDue = true ∨ s.sp0.expBusy = true → s.compandStep.sp1.rx = s.sp1.rx ∧
      s.compandStep.sp1.expDue = (s.sp1.expDue || s.sp1.expNew)) ∧
    s.compandStep.sp0 = s.sp0.compandStep true true (s.freeTx 0) ∧ s.compandStep.sp0.expBusy = false ∧
    (s.sp0.compDue = false → s.sp0.expDue = false → s.sp0.expBusy = false →
      s.compandStep.sp1 = s.sp1.compandStep true true (s.freeTx 1))) ∧
  (∀ c : BitVec 8, compressA (expandA c) = c) ∧ ∀ c : BitVec 8, c ≠ 0x7F → compressMu (expandMu c) = c

/-- The autobuffer transfers. The one made is the first that is requested of SPORT0 transmit, SPORT0 receive, SPORT1 transmit
and SPORT1 receive. Transmit loads TX with the Data Memory word at the I register of TIREG, receive stores RX there for RIREG,
which is either value while the expansion of a value written to RX is still due (notes/assumptions/23.md);
the I register is then modified by TMREG or RMREG of its own DAG, and the port's interrupt is requested when it wraps: L is not
0 and the exact sum of I and M leaves the buffer; TX loaded is compressed in the next cycle. A stored word goes to its two
bytes and nowhere else, one to a control register to no memory; one where the member has no memory is lost, the model's choice
(notes/assumptions/14.md) (62_serial_ports.md R597, R598, R599; 10_state.md R48; 92_eei_decisions.md D39). -/
def Obligations.AutobufferTransfer : Prop :=
  (∀ s : State,
    s.autobuffer =
      if s.sp0.txReq then some (s.autoTx 0) else if s.sp0.rxReq then some (s.autoRx 0)
      else if s.sp1.txReq then some (s.autoTx 1) else if s.sp1.rxReq then some (s.autoRx 1) else none) ∧
  (∀ i m l : Addr, (l = 0 → dagWraps i m l = false) ∧
    ∀ n : Nat, l.toNat ≤ 2 ^ n → 2 ^ n < 2 * l.toNat →
      let base : Int := i.toNat / 2 ^ n * 2 ^ n
      (dagWraps i m l = true ↔ i.toNat + m.toInt < base ∨ base + l.toNat ≤ i.toNat + m.toInt)) ∧
  ∀ (n : Fin 2) (s : State), Memory.wf s.mem = true →
    let p := s.sport n
    let ti : Fin 8 := Fin.ofNat 8 (p.auto.toNat / 512 % 8)
    let tm : Fin 8 := Fin.ofNat 8 (p.auto.toNat / 512 % 8 / 4 * 4 + p.auto.toNat / 128 % 4)
    let ri : Fin 8 := Fin.ofNat 8 (p.auto.toNat / 16 % 8)
    let rm : Fin 8 := Fin.ofNat 8 (p.auto.toNat / 16 % 8 / 4 * 4 + p.auto.toNat / 4 % 4)
    let t := s.autoTx n
    let u := s.autoRx n
    let a := s.dagAddr ri
    t.sport n = { p with txReq := false, tx := s.readDm (s.dagAddr ti), txFull := true, compDue := p.companding } ∧
    (∀ m, m ≠ n → t.sport m = s.sport m) ∧ t.mem = s.mem ∧ t.dag = { s.dag with i := s.dag.i.set ti (s.dagNext ti tm) } ∧
    (∀ k, t.irq.latch.getLsbD k = (s.irq.latch.getLsbD k ||
      (decide (k = txLevel n) && dagWraps s.dag.i[ti] s.dag.m[tm] s.dag.l[ti]))) ∧
    (a.toNat < 0x3FE0 →
      u.sport n = { p with rxReq := false } ∧ (∀ m, m ≠ n → u.sport m = s.sport m) ∧
      (∀ k, u.irq.latch.getLsbD k = (s.irq.latch.getLsbD k ||
        (decide (k = rxLevel n) && dagWraps s.dag.i[ri] s.dag.m[rm] s.dag.l[ri]))) ∧
      match s.dmLoc s.st.dmovlay a with
      | some l => memGet16 u.mem l.base = s.readRx n ∧ SameMemBut s u l.base 2
      | none => SameMem s u) ∧
    (p.expDue = false → s.readRx n = p.rx) ∧ (s.readRx n = p.rx ∨ s.readRx n = p.expanded) ∧ (0x3FE0 ≤ a.toNat → SameMem s u) ∧
    u.dag = { s.dag with i := s.dag.i.set ri (s.dagNext ri rm) } ∧
    (u.pri = s.pri ∧ u.sec = s.sec ∧ u.seq = s.seq ∧ u.st = s.st ∧ t.pri = s.pri ∧ t.sec = s.sec ∧ t.seq = s.seq ∧
      t.st = s.st)

/-- One BDMA word, of each type and in each direction: the bytes of Byte Memory from BMPAGE and BEAD, the first most
significant, become the Program Memory or Data Memory word at BIAD, a single byte its upper or its lower half with 0 in the
other, or are made from it; every other byte is as before. BIAD, the byte address and BWCOUNT advance, and the last word
requests the BDMA interrupt and, with BCR 1, resets the context. In Host Memory Mode the bus carries the page and A0 of a byte
address. A bus request is granted at once, but in powerdown and in the middle of a byte access, which is finished first; its
release ends request and grant. A word loaded where the member has no internal memory, or to a control register, is lost, and
Byte Memory is RAM, the model's choice (notes/assumptions/25.md, 33.md), as is where a byte access ends
(notes/assumptions/36.md) (61_peripherals.md R612, R613, R615, R617, R622, R641; 20_memory.md R118, R137;
70_reset_and_hazards.md R684, R731). -/
def Obligations.BdmaWord : Prop :=
  (∀ (s : State) (b : Bool) (rest : List Event), s.env = .busRequest b :: rest →
    let amid : Prop := s.bdma.active = true ∧ s.bdma.wait % (s.bmwait + 1) ≠ 0
    ∃ t, step s = .next t ∧ t = { s with env := rest, freeCtr := s.freeCtr + 1, br := b, bg := t.bg } ∧
      (t.bg = true ↔ b = true ∧ (s.bg = true ∨ (s.core ≠ .powerDown ∧ ¬amid)))) ∧
  ∀ s : State, Memory.wf s.mem = true → (s.bdma.bcr = true → s.bdma.bcrStart = true) →
    s.bdma.bmpage * 16384 + s.bdma.bead.toNat + s.bdma.bytes ≤ 4194304 →
    let place (j : Nat) : Nat :=
      let x := s.bdma.bmpage * 16384 + s.bdma.bead.toNat + j
      0x400000 + if s.hostMode then x / 16384 * 16384 + x % 2 else x
    let byte (j : Nat) : Byte := memGet s.mem (place j)
    let pm := s.pmDma s.bmovlay s.bdma.biad
    let dm := s.dmDma s.bmovlay s.bdma.biad
    ∃ t, s.bdmaWord = .next t ∧
      (s.bdma.bdir = false → s.bdma.btype = 0 →
        (pm = none → SameMem s t) ∧
        ∀ l, pm = some l → SameMemBut s t l.base 3 ∧ memGet24 t.mem l.base = byte 0 ++ byte 1 ++ byte 2) ∧
      (s.bdma.bdir = false → s.bdma.btype ≠ 0 →
        (dm = none → SameMem s t) ∧
        ∀ l, dm = some l → SameMemBut s t l.base 2 ∧
          memGet16 t.mem l.base =
            if s.bdma.btype = 1 then byte 0 ++ byte 1 else if s.bdma.btype = 2 then byte 0 ++ 0#8 else 0#8 ++ byte 0) ∧
      (s.bdma.bdir = true → ∀ a, (∀ j, j < s.bdma.bytes → a ≠ place j) → memGet t.mem a = memGet s.mem a) ∧
      (s.bdma.bdir = true → s.bdma.btype = 0 → ∀ l, pm = some l →
        (s.hostMode = false → memGet t.mem (place 0) = (memGet24 s.mem l.base).extractLsb' 16 8) ∧
        memGet t.mem (place 1) = (memGet24 s.mem l.base).extractLsb' 8 8 ∧
        memGet t.mem (place 2) = (memGet24 s.mem l.base).extractLsb' 0 8) ∧
      (s.bdma.bdir = true → ∀ l, dm = some l →
        (s.bdma.btype = 1 → memGet t.mem (place 0) ++ memGet t.mem (place 1) = memGet16 s.mem l.base) ∧
        (s.bdma.btype = 2 → memGet t.mem (place 0) = (memGet16 s.mem l.base).extractLsb' 8 8) ∧
        (s.bdma.btype = 3 → memGet t.mem (place 0) = (memGet16 s.mem l.base).extractLsb' 0 8)) ∧
      t.bdma.biad = s.bdma.biad + 1 ∧ t.bdma.bwcount = s.bdma.bwcount - 1 ∧
      t.bdma.active = (s.bdma.bwcount != 1) ∧
      (t.bdma.bmpage * 16384 + t.bdma.bead.toNat) % 4194304 =
        (s.bdma.bmpage * 16384 + s.bdma.bead.toNat + s.bdma.bytes) % 4194304 ∧
      t.irq.latch.getLsbD 3 = (s.irq.latch.getLsbD 3 || s.bdma.bwcount == 1) ∧
      (t.pri = s.pri ∧ t.sec = s.sec ∧ t.dag = s.dag) ∧
      if s.bdma.bcr = true ∧ s.bdma.bwcount = 1 then
        t.seq = s.contextReset.seq ∧ t.st = s.contextReset.st ∧ t.core = .running
      else t.seq = s.seq ∧ t.st = s.st ∧ t.core = s.core

/-- A context reset restarts the program at address 0 with the stacks empty, ASTAT and IMASK 0 and the counter invalid; a
pending IFC command, IMASK hold-off and delayed pop, the autobuffer enables and requests and a powerdown sequence are dropped;
the computational registers, the DAG registers, PX, the request latches, ICNTL, the interrupt enable, the overlay registers and
memory are as before. So are a PDFORCE not yet due and an ICNTL not yet in use, the model's choice (notes/assumptions/54.md).
That the request latches and the interrupt enable are kept is the spec's own decision D40 (notes/assumptions/44.md). MSTAT is as
before too, by R684 and R81; R615 lists it as 0, and the model's choice between them is notes/assumptions/29.md
(70_reset_and_hazards.md R684; 10_state.md R81; 60_exceptions.md R552; 61_peripherals.md R615; 92_eei_decisions.md D40). -/
def Obligations.ContextReset : Prop :=
  ∀ s : State,
    let t := s.contextReset
    t.seq.pc = 0 ∧ t.sstat = 0x55 ∧ t.st.astat = 0 ∧ t.st.imask = 0 ∧ t.seq.cntrValid = false ∧ t.core = .running ∧
    t.pri = s.pri ∧ t.sec = s.sec ∧ t.st.mstat = s.st.mstat ∧ t.dag = s.dag ∧ t.px = s.px ∧ t.mem = s.mem ∧
    (t.sp0.tbuf = false ∧ t.sp0.rbuf = false ∧ t.sp1.tbuf = false ∧ t.sp1.rbuf = false) ∧
    (t.sp0.txReq = false ∧ t.sp0.rxReq = false ∧ t.sp1.txReq = false ∧ t.sp1.rxReq = false) ∧
    (t.lat.ifcNew = 0 ∧ t.lat.ifcDue = 0 ∧ t.lat.imaskNew = false ∧ t.lat.imaskHold = false ∧ t.lat.popNew = false ∧
      t.lat.popDue = false ∧ t.lat.pdNew = s.lat.pdNew ∧ t.lat.pdDue = s.lat.pdDue ∧ t.lat.icntlEff = s.lat.icntlEff) ∧
    t.irq = { s.irq with pdSeq := false } ∧ t.st = { s.st with astat := 0, imask := 0 }

/-- The IDMA port. Two host writes to a Program Memory address store one 24-bit word there, upper 16 bits first, and move the
address on by one, and two host reads from there give it back; a host write to a Data Memory address stores a 16-bit word there
and moves the address on, and a host read gives it back. The first half of a write and the second half of a read are done at
once, the other accesses wait for an instruction boundary. A latch sets the address and the memory, 1 for Data Memory by the
polarity of general knowledge (notes/assumptions/32.md), or, with bit 15 on a member with IDMA Overlay, that register; on
another member bit 15 is ignored, the spec's own reading (notes/assumptions/44.md). While the core is held for an IDMA boot the
second half of a word written to Program Memory address 0 sets it running from there, and no other half, latch or Data Memory
word does (61_peripherals.md R626, R627, R628, R632, R634; 70_reset_and_hazards.md R683). -/
def Obligations.IdmaWords : Prop :=
  ∀ (s : State) (hi lo : Word), Memory.wf s.mem = true →
    (∀ l, s.idma.toDm = false → s.idma.half = .first → s.core ≠ .heldIdma → s.pmDma s.idPm s.idma.addr = some l →
      ∃ t u, s.idmaStep (.write hi) = .next t ∧ t.mem = s.mem ∧ t.idmaStep (.write lo) = .next u ∧
        memGet24 u.mem l.base = hi ++ lo.extractLsb' 0 8 ∧ SameMemBut s u l.base 3 ∧
        u.idma.addr = s.idma.addr + 1 ∧ u.idma.half = .first ∧
        ∃ r q, (u.setIdma { u.idma with addr := s.idma.addr }).idmaStep .read = .next r ∧ r.idma.out = hi ∧
          r.idmaStep .read = .next q ∧ q.idma.out = (lo.extractLsb' 0 8).setWidth 16 ∧ q.idma.addr = s.idma.addr + 1) ∧
    (∀ l, s.idma.toDm = true → s.dmDma s.idDm s.idma.addr = some l →
      ∃ t, s.idmaStep (.write hi) = .next t ∧ memGet16 t.mem l.base = hi ∧ SameMemBut s t l.base 2 ∧
        t.idma.addr = s.idma.addr + 1 ∧
        ∃ r, (t.setIdma { t.idma with addr := s.idma.addr }).idmaStep .read = .next r ∧ r.idma.out = hi ∧
          r.idma.addr = s.idma.addr + 1 ∧ r.mem = t.mem) ∧
    (s.core = .running → s.hasIdmaPort = true → s.idma.pend = none →
      let waits (op : IdmaOp) : Prop := s.idmaEvent op = .next (s.setIdma { s.idma with pend := some op })
      s.idmaEvent (.latch hi) = s.idmaStep (.latch hi) ∧
      (s.idma.toDm = true → waits .read ∧ waits (.write hi)) ∧
      (s.idma.toDm = false →
        (s.idma.half = .first → s.idmaEvent (.write hi) = s.idmaStep (.write hi) ∧ waits .read) ∧
        (s.idma.half = .secondRead → s.idmaEvent .read = s.idmaStep .read) ∧
        (s.idma.half = .secondWrite → waits (.write hi)))) ∧
    ((s.cfg.member.hasIdmaOvl = false ∨ hi.getLsbD 15 = false) →
      ∃ t, s.idmaStep (.latch hi) = .next t ∧
        t = { s with idma := { s.idma with addr := hi.setWidth 14, toDm := hi.getLsbD 14, half := .first } }) ∧
    (s.cfg.member.hasIdmaOvl = true → hi.getLsbD 15 = true →
      ∃ t, s.idmaStep (.latch hi) = .next t ∧
        t = { s with idma := { s.idma with ovl := t.idma.ovl, half := .first } } ∧ t.idma.ovl = hi &&& 0x7FFF) ∧
    (s.env = [] → s.core = .heldIdma → s.busHalts = false → s.idma.toDm = false → s.idma.half = .secondWrite →
      s.idma.pend = some (.write lo) → ∀ l, s.pmDma s.idPm s.idma.addr = some l →
      ∃ t, step s = .next t ∧ memGet24 t.mem l.base = s.idma.holding ++ lo.extractLsb' 0 8 ∧ SameMemBut s t l.base 3 ∧
        t.idma.addr = s.idma.addr + 1 ∧ t.idma.half = .first ∧ t.st = s.st ∧
        if s.idma.addr = 0 then t.core = .running ∧ t.seq = { s.seq with pc := 0, prefetch := none }
        else t.core = .heldIdma ∧ t.seq = s.seq) ∧
    (s.core = .heldIdma → ∀ op t, s.idmaStep op = .next t →
      (op = .latch hi ∨ s.idma.toDm = true ∨ (s.idma.half = .first ∧ op = .write hi) ∨
        (s.idma.half ≠ .secondWrite ∧ op = .read)) →
      t.core = .heldIdma ∧ t.seq = s.seq)

end
end

