-- ==== Sys2Proof/Laws/Bits.lean ====
section
/-!
SUPPORT. The bits of a status register after one of them is written, or some of them opened.
-/

namespace Sys2Proof.Machine

/-- Every bit of `putBit`. -/
theorem getLsbD_putBit {w : Nat} (v : BitVec w) (k : Nat) (b : Bool) (j : Nat) :
    (putBit v k b).getLsbD j = if j = k ∧ k < w then b else v.getLsbD j := by
  have h : (BitVec.ofNat w (2 ^ k)).getLsbD j = decide (j = k ∧ k < w) := by
    rw [BitVec.getLsbD_ofNat, Nat.testBit_two_pow]
    by_cases hj : j = k
    · subst hj; simp
    · simp [hj, Ne.symm hj]
  have hv : w ≤ j → v.getLsbD j = false := fun hw => BitVec.getLsbD_of_ge v j hw
  unfold putBit
  generalize BitVec.ofNat w (2 ^ k) = m at h
  by_cases hw : j < w
  · simp only [show (j = k ∧ k < w) ↔ j = k by omega] at h ⊢
    cases b
    · simp only [Bool.false_eq_true, if_false, BitVec.getLsbD_and, BitVec.getLsbD_not, h, hw, decide_true, Bool.true_and]
      by_cases hj : j = k <;> simp [hj]
    · simp only [if_true, BitVec.getLsbD_or, h]
      by_cases hj : j = k <;> simp [hj]
  · have hj : ¬(j = k ∧ k < w) := fun hj => hw (hj.1 ▸ hj.2)
    cases b <;> simp [hj, hv (Nat.le_of_not_lt hw), h, BitVec.getLsbD_and, BitVec.getLsbD_or]

/-- Every bit of `openBits`. -/
theorem getLsbD_openBits {w : Nat} (mask v o : BitVec w) (j : Nat) :
    (openBits mask v o).getLsbD j = if mask.getLsbD j then o.getLsbD j else v.getLsbD j := by
  unfold openBits
  by_cases hw : j < w
  · cases h : mask.getLsbD j <;>
      simp only [BitVec.getLsbD_and, BitVec.getLsbD_or, BitVec.getLsbD_not, h, hw, if_true, if_false, decide_true,
        Bool.false_eq_true, Bool.not_true, Bool.not_false, Bool.and_true, Bool.and_false, Bool.or_false, Bool.false_or]
  · have hm : mask.getLsbD j = false := BitVec.getLsbD_of_ge mask j (Nat.le_of_not_lt hw)
    have hv : v.getLsbD j = false := BitVec.getLsbD_of_ge v j (Nat.le_of_not_lt hw)
    simp [hm, hv]

end Sys2Proof.Machine
end

