-- ==== Sys2Proof/Laws/State.lean ====
section
/-!
SUPPORT. What each update of the state leaves and changes, field by field. The updates are those of
Machine/Ops.lean, Operands.lean, Multi.lean, Devices.lean and Cycle.lean.
-/

namespace Sys2Proof.Machine

variable (s : State)

/-! ### State.setPc -/

@[simp] theorem setPc_cfg (a : Addr) : (s.setPc a).cfg = s.cfg := rfl
@[simp] theorem setPc_pri (a : Addr) : (s.setPc a).pri = s.pri := rfl
@[simp] theorem setPc_sec (a : Addr) : (s.setPc a).sec = s.sec := rfl
@[simp] theorem setPc_dag (a : Addr) : (s.setPc a).dag = s.dag := rfl
@[simp] theorem setPc_px (a : Addr) : (s.setPc a).px = s.px := rfl
@[simp] theorem setPc_seq (a : Addr) : (s.setPc a).seq = { s.seq with pc := a } := rfl
@[simp] theorem setPc_st (a : Addr) : (s.setPc a).st = s.st := rfl
@[simp] theorem setPc_irq (a : Addr) : (s.setPc a).irq = s.irq := rfl
@[simp] theorem setPc_lat (a : Addr) : (s.setPc a).lat = s.lat := rfl
@[simp] theorem setPc_timer (a : Addr) : (s.setPc a).timer = s.timer := rfl
@[simp] theorem setPc_ctl (a : Addr) : (s.setPc a).ctl = s.ctl := rfl
@[simp] theorem setPc_sp0 (a : Addr) : (s.setPc a).sp0 = s.sp0 := rfl
@[simp] theorem setPc_sp1 (a : Addr) : (s.setPc a).sp1 = s.sp1 := rfl
@[simp] theorem setPc_mc (a : Addr) : (s.setPc a).mc = s.mc := rfl
@[simp] theorem setPc_bdma (a : Addr) : (s.setPc a).bdma = s.bdma := rfl
@[simp] theorem setPc_idma (a : Addr) : (s.setPc a).idma = s.idma := rfl
@[simp] theorem setPc_flags (a : Addr) : (s.setPc a).flags = s.flags := rfl
@[simp] theorem setPc_core (a : Addr) : (s.setPc a).core = s.core := rfl
@[simp] theorem setPc_pins (a : Addr) : (s.setPc a).pins = s.pins := rfl
@[simp] theorem setPc_br (a : Addr) : (s.setPc a).br = s.br := rfl
@[simp] theorem setPc_bg (a : Addr) : (s.setPc a).bg = s.bg := rfl
@[simp] theorem setPc_stalled (a : Addr) : (s.setPc a).stalled = s.stalled := rfl
@[simp] theorem setPc_held (a : Addr) : (s.setPc a).held = s.held := rfl
@[simp] theorem setPc_amid (a : Addr) : (s.setPc a).amid = s.amid := rfl
@[simp] theorem setPc_mem (a : Addr) : (s.setPc a).mem = s.mem := rfl
@[simp] theorem setPc_io (a : Addr) : (s.setPc a).io = s.io := rfl
@[simp] theorem setPc_env (a : Addr) : (s.setPc a).env = s.env := rfl
@[simp] theorem setPc_freeCtr (a : Addr) : (s.setPc a).freeCtr = s.freeCtr := rfl
@[simp] theorem setPc_clock (a : Addr) : (s.setPc a).clock = s.clock := rfl

/-! ### State.setPcStk -/

@[simp] theorem setPcStk_cfg (k : Stack Addr) : (s.setPcStk k).cfg = s.cfg := rfl
@[simp] theorem setPcStk_pri (k : Stack Addr) : (s.setPcStk k).pri = s.pri := rfl
@[simp] theorem setPcStk_sec (k : Stack Addr) : (s.setPcStk k).sec = s.sec := rfl
@[simp] theorem setPcStk_dag (k : Stack Addr) : (s.setPcStk k).dag = s.dag := rfl
@[simp] theorem setPcStk_px (k : Stack Addr) : (s.setPcStk k).px = s.px := rfl
@[simp] theorem setPcStk_seq (k : Stack Addr) : (s.setPcStk k).seq = { s.seq with pcStk := k } := rfl
@[simp] theorem setPcStk_st (k : Stack Addr) : (s.setPcStk k).st = s.st := rfl
@[simp] theorem setPcStk_irq (k : Stack Addr) : (s.setPcStk k).irq = s.irq := rfl
@[simp] theorem setPcStk_lat (k : Stack Addr) : (s.setPcStk k).lat = { s.lat with use := { s.lat.use with pcStack := true } } := rfl
@[simp] theorem setPcStk_timer (k : Stack Addr) : (s.setPcStk k).timer = s.timer := rfl
@[simp] theorem setPcStk_ctl (k : Stack Addr) : (s.setPcStk k).ctl = s.ctl := rfl
@[simp] theorem setPcStk_sp0 (k : Stack Addr) : (s.setPcStk k).sp0 = s.sp0 := rfl
@[simp] theorem setPcStk_sp1 (k : Stack Addr) : (s.setPcStk k).sp1 = s.sp1 := rfl
@[simp] theorem setPcStk_mc (k : Stack Addr) : (s.setPcStk k).mc = s.mc := rfl
@[simp] theorem setPcStk_bdma (k : Stack Addr) : (s.setPcStk k).bdma = s.bdma := rfl
@[simp] theorem setPcStk_idma (k : Stack Addr) : (s.setPcStk k).idma = s.idma := rfl
@[simp] theorem setPcStk_flags (k : Stack Addr) : (s.setPcStk k).flags = s.flags := rfl
@[simp] theorem setPcStk_core (k : Stack Addr) : (s.setPcStk k).core = s.core := rfl
@[simp] theorem setPcStk_pins (k : Stack Addr) : (s.setPcStk k).pins = s.pins := rfl
@[simp] theorem setPcStk_br (k : Stack Addr) : (s.setPcStk k).br = s.br := rfl
@[simp] theorem setPcStk_bg (k : Stack Addr) : (s.setPcStk k).bg = s.bg := rfl
@[simp] theorem setPcStk_stalled (k : Stack Addr) : (s.setPcStk k).stalled = s.stalled := rfl
@[simp] theorem setPcStk_held (k : Stack Addr) : (s.setPcStk k).held = s.held := rfl
@[simp] theorem setPcStk_amid (k : Stack Addr) : (s.setPcStk k).amid = s.amid := rfl
@[simp] theorem setPcStk_mem (k : Stack Addr) : (s.setPcStk k).mem = s.mem := rfl
@[simp] theorem setPcStk_io (k : Stack Addr) : (s.setPcStk k).io = s.io := rfl
@[simp] theorem setPcStk_env (k : Stack Addr) : (s.setPcStk k).env = s.env := rfl
@[simp] theorem setPcStk_freeCtr (k : Stack Addr) : (s.setPcStk k).freeCtr = s.freeCtr := rfl
@[simp] theorem setPcStk_clock (k : Stack Addr) : (s.setPcStk k).clock = s.clock := rfl

/-! ### State.setLoopStk -/

@[simp] theorem setLoopStk_cfg (k : Stack LoopEntry) : (s.setLoopStk k).cfg = s.cfg := rfl
@[simp] theorem setLoopStk_pri (k : Stack LoopEntry) : (s.setLoopStk k).pri = s.pri := rfl
@[simp] theorem setLoopStk_sec (k : Stack LoopEntry) : (s.setLoopStk k).sec = s.sec := rfl
@[simp] theorem setLoopStk_dag (k : Stack LoopEntry) : (s.setLoopStk k).dag = s.dag := rfl
@[simp] theorem setLoopStk_px (k : Stack LoopEntry) : (s.setLoopStk k).px = s.px := rfl
@[simp] theorem setLoopStk_seq (k : Stack LoopEntry) : (s.setLoopStk k).seq = { s.seq with loopStk := k } := rfl
@[simp] theorem setLoopStk_st (k : Stack LoopEntry) : (s.setLoopStk k).st = s.st := rfl
@[simp] theorem setLoopStk_irq (k : Stack LoopEntry) : (s.setLoopStk k).irq = s.irq := rfl
@[simp] theorem setLoopStk_lat (k : Stack LoopEntry) : (s.setLoopStk k).lat = { s.lat with use := { s.lat.use with loop := true } } := rfl
@[simp] theorem setLoopStk_timer (k : Stack LoopEntry) : (s.setLoopStk k).timer = s.timer := rfl
@[simp] theorem setLoopStk_ctl (k : Stack LoopEntry) : (s.setLoopStk k).ctl = s.ctl := rfl
@[simp] theorem setLoopStk_sp0 (k : Stack LoopEntry) : (s.setLoopStk k).sp0 = s.sp0 := rfl
@[simp] theorem setLoopStk_sp1 (k : Stack LoopEntry) : (s.setLoopStk k).sp1 = s.sp1 := rfl
@[simp] theorem setLoopStk_mc (k : Stack LoopEntry) : (s.setLoopStk k).mc = s.mc := rfl
@[simp] theorem setLoopStk_bdma (k : Stack LoopEntry) : (s.setLoopStk k).bdma = s.bdma := rfl
@[simp] theorem setLoopStk_idma (k : Stack LoopEntry) : (s.setLoopStk k).idma = s.idma := rfl
@[simp] theorem setLoopStk_flags (k : Stack LoopEntry) : (s.setLoopStk k).flags = s.flags := rfl
@[simp] theorem setLoopStk_core (k : Stack LoopEntry) : (s.setLoopStk k).core = s.core := rfl
@[simp] theorem setLoopStk_pins (k : Stack LoopEntry) : (s.setLoopStk k).pins = s.pins := rfl
@[simp] theorem setLoopStk_br (k : Stack LoopEntry) : (s.setLoopStk k).br = s.br := rfl
@[simp] theorem setLoopStk_bg (k : Stack LoopEntry) : (s.setLoopStk k).bg = s.bg := rfl
@[simp] theorem setLoopStk_stalled (k : Stack LoopEntry) : (s.setLoopStk k).stalled = s.stalled := rfl
@[simp] theorem setLoopStk_held (k : Stack LoopEntry) : (s.setLoopStk k).held = s.held := rfl
@[simp] theorem setLoopStk_amid (k : Stack LoopEntry) : (s.setLoopStk k).amid = s.amid := rfl
@[simp] theorem setLoopStk_mem (k : Stack LoopEntry) : (s.setLoopStk k).mem = s.mem := rfl
@[simp] theorem setLoopStk_io (k : Stack LoopEntry) : (s.setLoopStk k).io = s.io := rfl
@[simp] theorem setLoopStk_env (k : Stack LoopEntry) : (s.setLoopStk k).env = s.env := rfl
@[simp] theorem setLoopStk_freeCtr (k : Stack LoopEntry) : (s.setLoopStk k).freeCtr = s.freeCtr := rfl
@[simp] theorem setLoopStk_clock (k : Stack LoopEntry) : (s.setLoopStk k).clock = s.clock := rfl

/-! ### State.setCntStk -/

@[simp] theorem setCntStk_cfg (k : Stack Addr) : (s.setCntStk k).cfg = s.cfg := rfl
@[simp] theorem setCntStk_pri (k : Stack Addr) : (s.setCntStk k).pri = s.pri := rfl
@[simp] theorem setCntStk_sec (k : Stack Addr) : (s.setCntStk k).sec = s.sec := rfl
@[simp] theorem setCntStk_dag (k : Stack Addr) : (s.setCntStk k).dag = s.dag := rfl
@[simp] theorem setCntStk_px (k : Stack Addr) : (s.setCntStk k).px = s.px := rfl
@[simp] theorem setCntStk_seq (k : Stack Addr) : (s.setCntStk k).seq = { s.seq with cntStk := k } := rfl
@[simp] theorem setCntStk_st (k : Stack Addr) : (s.setCntStk k).st = s.st := rfl
@[simp] theorem setCntStk_irq (k : Stack Addr) : (s.setCntStk k).irq = s.irq := rfl
@[simp] theorem setCntStk_lat (k : Stack Addr) : (s.setCntStk k).lat = { s.lat with use := { s.lat.use with count := true } } := rfl
@[simp] theorem setCntStk_timer (k : Stack Addr) : (s.setCntStk k).timer = s.timer := rfl
@[simp] theorem setCntStk_ctl (k : Stack Addr) : (s.setCntStk k).ctl = s.ctl := rfl
@[simp] theorem setCntStk_sp0 (k : Stack Addr) : (s.setCntStk k).sp0 = s.sp0 := rfl
@[simp] theorem setCntStk_sp1 (k : Stack Addr) : (s.setCntStk k).sp1 = s.sp1 := rfl
@[simp] theorem setCntStk_mc (k : Stack Addr) : (s.setCntStk k).mc = s.mc := rfl
@[simp] theorem setCntStk_bdma (k : Stack Addr) : (s.setCntStk k).bdma = s.bdma := rfl
@[simp] theorem setCntStk_idma (k : Stack Addr) : (s.setCntStk k).idma = s.idma := rfl
@[simp] theorem setCntStk_flags (k : Stack Addr) : (s.setCntStk k).flags = s.flags := rfl
@[simp] theorem setCntStk_core (k : Stack Addr) : (s.setCntStk k).core = s.core := rfl
@[simp] theorem setCntStk_pins (k : Stack Addr) : (s.setCntStk k).pins = s.pins := rfl
@[simp] theorem setCntStk_br (k : Stack Addr) : (s.setCntStk k).br = s.br := rfl
@[simp] theorem setCntStk_bg (k : Stack Addr) : (s.setCntStk k).bg = s.bg := rfl
@[simp] theorem setCntStk_stalled (k : Stack Addr) : (s.setCntStk k).stalled = s.stalled := rfl
@[simp] theorem setCntStk_held (k : Stack Addr) : (s.setCntStk k).held = s.held := rfl
@[simp] theorem setCntStk_amid (k : Stack Addr) : (s.setCntStk k).amid = s.amid := rfl
@[simp] theorem setCntStk_mem (k : Stack Addr) : (s.setCntStk k).mem = s.mem := rfl
@[simp] theorem setCntStk_io (k : Stack Addr) : (s.setCntStk k).io = s.io := rfl
@[simp] theorem setCntStk_env (k : Stack Addr) : (s.setCntStk k).env = s.env := rfl
@[simp] theorem setCntStk_freeCtr (k : Stack Addr) : (s.setCntStk k).freeCtr = s.freeCtr := rfl
@[simp] theorem setCntStk_clock (k : Stack Addr) : (s.setCntStk k).clock = s.clock := rfl

/-! ### State.setStsStk -/

@[simp] theorem setStsStk_cfg (k : Stack StsEntry) : (s.setStsStk k).cfg = s.cfg := rfl
@[simp] theorem setStsStk_pri (k : Stack StsEntry) : (s.setStsStk k).pri = s.pri := rfl
@[simp] theorem setStsStk_sec (k : Stack StsEntry) : (s.setStsStk k).sec = s.sec := rfl
@[simp] theorem setStsStk_dag (k : Stack StsEntry) : (s.setStsStk k).dag = s.dag := rfl
@[simp] theorem setStsStk_px (k : Stack StsEntry) : (s.setStsStk k).px = s.px := rfl
@[simp] theorem setStsStk_seq (k : Stack StsEntry) : (s.setStsStk k).seq = { s.seq with stsStk := k } := rfl
@[simp] theorem setStsStk_st (k : Stack StsEntry) : (s.setStsStk k).st = s.st := rfl
@[simp] theorem setStsStk_irq (k : Stack StsEntry) : (s.setStsStk k).irq = s.irq := rfl
@[simp] theorem setStsStk_lat (k : Stack StsEntry) : (s.setStsStk k).lat = s.lat := rfl
@[simp] theorem setStsStk_timer (k : Stack StsEntry) : (s.setStsStk k).timer = s.timer := rfl
@[simp] theorem setStsStk_ctl (k : Stack StsEntry) : (s.setStsStk k).ctl = s.ctl := rfl
@[simp] theorem setStsStk_sp0 (k : Stack StsEntry) : (s.setStsStk k).sp0 = s.sp0 := rfl
@[simp] theorem setStsStk_sp1 (k : Stack StsEntry) : (s.setStsStk k).sp1 = s.sp1 := rfl
@[simp] theorem setStsStk_mc (k : Stack StsEntry) : (s.setStsStk k).mc = s.mc := rfl
@[simp] theorem setStsStk_bdma (k : Stack StsEntry) : (s.setStsStk k).bdma = s.bdma := rfl
@[simp] theorem setStsStk_idma (k : Stack StsEntry) : (s.setStsStk k).idma = s.idma := rfl
@[simp] theorem setStsStk_flags (k : Stack StsEntry) : (s.setStsStk k).flags = s.flags := rfl
@[simp] theorem setStsStk_core (k : Stack StsEntry) : (s.setStsStk k).core = s.core := rfl
@[simp] theorem setStsStk_pins (k : Stack StsEntry) : (s.setStsStk k).pins = s.pins := rfl
@[simp] theorem setStsStk_br (k : Stack StsEntry) : (s.setStsStk k).br = s.br := rfl
@[simp] theorem setStsStk_bg (k : Stack StsEntry) : (s.setStsStk k).bg = s.bg := rfl
@[simp] theorem setStsStk_stalled (k : Stack StsEntry) : (s.setStsStk k).stalled = s.stalled := rfl
@[simp] theorem setStsStk_held (k : Stack StsEntry) : (s.setStsStk k).held = s.held := rfl
@[simp] theorem setStsStk_amid (k : Stack StsEntry) : (s.setStsStk k).amid = s.amid := rfl
@[simp] theorem setStsStk_mem (k : Stack StsEntry) : (s.setStsStk k).mem = s.mem := rfl
@[simp] theorem setStsStk_io (k : Stack StsEntry) : (s.setStsStk k).io = s.io := rfl
@[simp] theorem setStsStk_env (k : Stack StsEntry) : (s.setStsStk k).env = s.env := rfl
@[simp] theorem setStsStk_freeCtr (k : Stack StsEntry) : (s.setStsStk k).freeCtr = s.freeCtr := rfl
@[simp] theorem setStsStk_clock (k : Stack StsEntry) : (s.setStsStk k).clock = s.clock := rfl

/-! ### State.setCntr -/

@[simp] theorem setCntr_cfg (v : Addr) (b : Bool) : (s.setCntr v b).cfg = s.cfg := rfl
@[simp] theorem setCntr_pri (v : Addr) (b : Bool) : (s.setCntr v b).pri = s.pri := rfl
@[simp] theorem setCntr_sec (v : Addr) (b : Bool) : (s.setCntr v b).sec = s.sec := rfl
@[simp] theorem setCntr_dag (v : Addr) (b : Bool) : (s.setCntr v b).dag = s.dag := rfl
@[simp] theorem setCntr_px (v : Addr) (b : Bool) : (s.setCntr v b).px = s.px := rfl
@[simp] theorem setCntr_seq (v : Addr) (b : Bool) : (s.setCntr v b).seq = { s.seq with cntr := v, cntrValid := b } := rfl
@[simp] theorem setCntr_st (v : Addr) (b : Bool) : (s.setCntr v b).st = s.st := rfl
@[simp] theorem setCntr_irq (v : Addr) (b : Bool) : (s.setCntr v b).irq = s.irq := rfl
@[simp] theorem setCntr_lat (v : Addr) (b : Bool) : (s.setCntr v b).lat = { s.lat with use := { s.lat.use with cntr := true } } := rfl
@[simp] theorem setCntr_timer (v : Addr) (b : Bool) : (s.setCntr v b).timer = s.timer := rfl
@[simp] theorem setCntr_ctl (v : Addr) (b : Bool) : (s.setCntr v b).ctl = s.ctl := rfl
@[simp] theorem setCntr_sp0 (v : Addr) (b : Bool) : (s.setCntr v b).sp0 = s.sp0 := rfl
@[simp] theorem setCntr_sp1 (v : Addr) (b : Bool) : (s.setCntr v b).sp1 = s.sp1 := rfl
@[simp] theorem setCntr_mc (v : Addr) (b : Bool) : (s.setCntr v b).mc = s.mc := rfl
@[simp] theorem setCntr_bdma (v : Addr) (b : Bool) : (s.setCntr v b).bdma = s.bdma := rfl
@[simp] theorem setCntr_idma (v : Addr) (b : Bool) : (s.setCntr v b).idma = s.idma := rfl
@[simp] theorem setCntr_flags (v : Addr) (b : Bool) : (s.setCntr v b).flags = s.flags := rfl
@[simp] theorem setCntr_core (v : Addr) (b : Bool) : (s.setCntr v b).core = s.core := rfl
@[simp] theorem setCntr_pins (v : Addr) (b : Bool) : (s.setCntr v b).pins = s.pins := rfl
@[simp] theorem setCntr_br (v : Addr) (b : Bool) : (s.setCntr v b).br = s.br := rfl
@[simp] theorem setCntr_bg (v : Addr) (b : Bool) : (s.setCntr v b).bg = s.bg := rfl
@[simp] theorem setCntr_stalled (v : Addr) (b : Bool) : (s.setCntr v b).stalled = s.stalled := rfl
@[simp] theorem setCntr_held (v : Addr) (b : Bool) : (s.setCntr v b).held = s.held := rfl
@[simp] theorem setCntr_amid (v : Addr) (b : Bool) : (s.setCntr v b).amid = s.amid := rfl
@[simp] theorem setCntr_mem (v : Addr) (b : Bool) : (s.setCntr v b).mem = s.mem := rfl
@[simp] theorem setCntr_io (v : Addr) (b : Bool) : (s.setCntr v b).io = s.io := rfl
@[simp] theorem setCntr_env (v : Addr) (b : Bool) : (s.setCntr v b).env = s.env := rfl
@[simp] theorem setCntr_freeCtr (v : Addr) (b : Bool) : (s.setCntr v b).freeCtr = s.freeCtr := rfl
@[simp] theorem setCntr_clock (v : Addr) (b : Bool) : (s.setCntr v b).clock = s.clock := rfl

/-! ### State.setAstat -/

@[simp] theorem setAstat_cfg (a : BitVec 8) : (s.setAstat a).cfg = s.cfg := rfl
@[simp] theorem setAstat_pri (a : BitVec 8) : (s.setAstat a).pri = s.pri := rfl
@[simp] theorem setAstat_sec (a : BitVec 8) : (s.setAstat a).sec = s.sec := rfl
@[simp] theorem setAstat_dag (a : BitVec 8) : (s.setAstat a).dag = s.dag := rfl
@[simp] theorem setAstat_px (a : BitVec 8) : (s.setAstat a).px = s.px := rfl
@[simp] theorem setAstat_seq (a : BitVec 8) : (s.setAstat a).seq = s.seq := rfl
@[simp] theorem setAstat_st (a : BitVec 8) : (s.setAstat a).st = { s.st with astat := a } := rfl
@[simp] theorem setAstat_irq (a : BitVec 8) : (s.setAstat a).irq = s.irq := rfl
@[simp] theorem setAstat_lat (a : BitVec 8) : (s.setAstat a).lat = s.lat := rfl
@[simp] theorem setAstat_timer (a : BitVec 8) : (s.setAstat a).timer = s.timer := rfl
@[simp] theorem setAstat_ctl (a : BitVec 8) : (s.setAstat a).ctl = s.ctl := rfl
@[simp] theorem setAstat_sp0 (a : BitVec 8) : (s.setAstat a).sp0 = s.sp0 := rfl
@[simp] theorem setAstat_sp1 (a : BitVec 8) : (s.setAstat a).sp1 = s.sp1 := rfl
@[simp] theorem setAstat_mc (a : BitVec 8) : (s.setAstat a).mc = s.mc := rfl
@[simp] theorem setAstat_bdma (a : BitVec 8) : (s.setAstat a).bdma = s.bdma := rfl
@[simp] theorem setAstat_idma (a : BitVec 8) : (s.setAstat a).idma = s.idma := rfl
@[simp] theorem setAstat_flags (a : BitVec 8) : (s.setAstat a).flags = s.flags := rfl
@[simp] theorem setAstat_core (a : BitVec 8) : (s.setAstat a).core = s.core := rfl
@[simp] theorem setAstat_pins (a : BitVec 8) : (s.setAstat a).pins = s.pins := rfl
@[simp] theorem setAstat_br (a : BitVec 8) : (s.setAstat a).br = s.br := rfl
@[simp] theorem setAstat_bg (a : BitVec 8) : (s.setAstat a).bg = s.bg := rfl
@[simp] theorem setAstat_stalled (a : BitVec 8) : (s.setAstat a).stalled = s.stalled := rfl
@[simp] theorem setAstat_held (a : BitVec 8) : (s.setAstat a).held = s.held := rfl
@[simp] theorem setAstat_amid (a : BitVec 8) : (s.setAstat a).amid = s.amid := rfl
@[simp] theorem setAstat_mem (a : BitVec 8) : (s.setAstat a).mem = s.mem := rfl
@[simp] theorem setAstat_io (a : BitVec 8) : (s.setAstat a).io = s.io := rfl
@[simp] theorem setAstat_env (a : BitVec 8) : (s.setAstat a).env = s.env := rfl
@[simp] theorem setAstat_freeCtr (a : BitVec 8) : (s.setAstat a).freeCtr = s.freeCtr := rfl
@[simp] theorem setAstat_clock (a : BitVec 8) : (s.setAstat a).clock = s.clock := rfl

/-! ### State.setI -/

@[simp] theorem setI_cfg (i : Fin 8) (v : Addr) : (s.setI i v).cfg = s.cfg := rfl
@[simp] theorem setI_pri (i : Fin 8) (v : Addr) : (s.setI i v).pri = s.pri := rfl
@[simp] theorem setI_sec (i : Fin 8) (v : Addr) : (s.setI i v).sec = s.sec := rfl
@[simp] theorem setI_dag (i : Fin 8) (v : Addr) : (s.setI i v).dag = { s.dag with i := s.dag.i.set i v } := rfl
@[simp] theorem setI_px (i : Fin 8) (v : Addr) : (s.setI i v).px = s.px := rfl
@[simp] theorem setI_seq (i : Fin 8) (v : Addr) : (s.setI i v).seq = s.seq := rfl
@[simp] theorem setI_st (i : Fin 8) (v : Addr) : (s.setI i v).st = s.st := rfl
@[simp] theorem setI_irq (i : Fin 8) (v : Addr) : (s.setI i v).irq = s.irq := rfl
@[simp] theorem setI_lat (i : Fin 8) (v : Addr) : (s.setI i v).lat = s.lat := rfl
@[simp] theorem setI_timer (i : Fin 8) (v : Addr) : (s.setI i v).timer = s.timer := rfl
@[simp] theorem setI_ctl (i : Fin 8) (v : Addr) : (s.setI i v).ctl = s.ctl := rfl
@[simp] theorem setI_sp0 (i : Fin 8) (v : Addr) : (s.setI i v).sp0 = s.sp0 := rfl
@[simp] theorem setI_sp1 (i : Fin 8) (v : Addr) : (s.setI i v).sp1 = s.sp1 := rfl
@[simp] theorem setI_mc (i : Fin 8) (v : Addr) : (s.setI i v).mc = s.mc := rfl
@[simp] theorem setI_bdma (i : Fin 8) (v : Addr) : (s.setI i v).bdma = s.bdma := rfl
@[simp] theorem setI_idma (i : Fin 8) (v : Addr) : (s.setI i v).idma = s.idma := rfl
@[simp] theorem setI_flags (i : Fin 8) (v : Addr) : (s.setI i v).flags = s.flags := rfl
@[simp] theorem setI_core (i : Fin 8) (v : Addr) : (s.setI i v).core = s.core := rfl
@[simp] theorem setI_pins (i : Fin 8) (v : Addr) : (s.setI i v).pins = s.pins := rfl
@[simp] theorem setI_br (i : Fin 8) (v : Addr) : (s.setI i v).br = s.br := rfl
@[simp] theorem setI_bg (i : Fin 8) (v : Addr) : (s.setI i v).bg = s.bg := rfl
@[simp] theorem setI_stalled (i : Fin 8) (v : Addr) : (s.setI i v).stalled = s.stalled := rfl
@[simp] theorem setI_held (i : Fin 8) (v : Addr) : (s.setI i v).held = s.held := rfl
@[simp] theorem setI_amid (i : Fin 8) (v : Addr) : (s.setI i v).amid = s.amid := rfl
@[simp] theorem setI_mem (i : Fin 8) (v : Addr) : (s.setI i v).mem = s.mem := rfl
@[simp] theorem setI_io (i : Fin 8) (v : Addr) : (s.setI i v).io = s.io := rfl
@[simp] theorem setI_env (i : Fin 8) (v : Addr) : (s.setI i v).env = s.env := rfl
@[simp] theorem setI_freeCtr (i : Fin 8) (v : Addr) : (s.setI i v).freeCtr = s.freeCtr := rfl
@[simp] theorem setI_clock (i : Fin 8) (v : Addr) : (s.setI i v).clock = s.clock := rfl

/-! ### State.setM -/

@[simp] theorem setM_cfg (i : Fin 8) (v : Addr) : (s.setM i v).cfg = s.cfg := rfl
@[simp] theorem setM_pri (i : Fin 8) (v : Addr) : (s.setM i v).pri = s.pri := rfl
@[simp] theorem setM_sec (i : Fin 8) (v : Addr) : (s.setM i v).sec = s.sec := rfl
@[simp] theorem setM_dag (i : Fin 8) (v : Addr) : (s.setM i v).dag = { s.dag with m := s.dag.m.set i v } := rfl
@[simp] theorem setM_px (i : Fin 8) (v : Addr) : (s.setM i v).px = s.px := rfl
@[simp] theorem setM_seq (i : Fin 8) (v : Addr) : (s.setM i v).seq = s.seq := rfl
@[simp] theorem setM_st (i : Fin 8) (v : Addr) : (s.setM i v).st = s.st := rfl
@[simp] theorem setM_irq (i : Fin 8) (v : Addr) : (s.setM i v).irq = s.irq := rfl
@[simp] theorem setM_lat (i : Fin 8) (v : Addr) : (s.setM i v).lat = s.lat := rfl
@[simp] theorem setM_timer (i : Fin 8) (v : Addr) : (s.setM i v).timer = s.timer := rfl
@[simp] theorem setM_ctl (i : Fin 8) (v : Addr) : (s.setM i v).ctl = s.ctl := rfl
@[simp] theorem setM_sp0 (i : Fin 8) (v : Addr) : (s.setM i v).sp0 = s.sp0 := rfl
@[simp] theorem setM_sp1 (i : Fin 8) (v : Addr) : (s.setM i v).sp1 = s.sp1 := rfl
@[simp] theorem setM_mc (i : Fin 8) (v : Addr) : (s.setM i v).mc = s.mc := rfl
@[simp] theorem setM_bdma (i : Fin 8) (v : Addr) : (s.setM i v).bdma = s.bdma := rfl
@[simp] theorem setM_idma (i : Fin 8) (v : Addr) : (s.setM i v).idma = s.idma := rfl
@[simp] theorem setM_flags (i : Fin 8) (v : Addr) : (s.setM i v).flags = s.flags := rfl
@[simp] theorem setM_core (i : Fin 8) (v : Addr) : (s.setM i v).core = s.core := rfl
@[simp] theorem setM_pins (i : Fin 8) (v : Addr) : (s.setM i v).pins = s.pins := rfl
@[simp] theorem setM_br (i : Fin 8) (v : Addr) : (s.setM i v).br = s.br := rfl
@[simp] theorem setM_bg (i : Fin 8) (v : Addr) : (s.setM i v).bg = s.bg := rfl
@[simp] theorem setM_stalled (i : Fin 8) (v : Addr) : (s.setM i v).stalled = s.stalled := rfl
@[simp] theorem setM_held (i : Fin 8) (v : Addr) : (s.setM i v).held = s.held := rfl
@[simp] theorem setM_amid (i : Fin 8) (v : Addr) : (s.setM i v).amid = s.amid := rfl
@[simp] theorem setM_mem (i : Fin 8) (v : Addr) : (s.setM i v).mem = s.mem := rfl
@[simp] theorem setM_io (i : Fin 8) (v : Addr) : (s.setM i v).io = s.io := rfl
@[simp] theorem setM_env (i : Fin 8) (v : Addr) : (s.setM i v).env = s.env := rfl
@[simp] theorem setM_freeCtr (i : Fin 8) (v : Addr) : (s.setM i v).freeCtr = s.freeCtr := rfl
@[simp] theorem setM_clock (i : Fin 8) (v : Addr) : (s.setM i v).clock = s.clock := rfl

/-! ### State.setL -/

@[simp] theorem setL_cfg (i : Fin 8) (v : Addr) : (s.setL i v).cfg = s.cfg := rfl
@[simp] theorem setL_pri (i : Fin 8) (v : Addr) : (s.setL i v).pri = s.pri := rfl
@[simp] theorem setL_sec (i : Fin 8) (v : Addr) : (s.setL i v).sec = s.sec := rfl
@[simp] theorem setL_dag (i : Fin 8) (v : Addr) : (s.setL i v).dag = { s.dag with l := s.dag.l.set i v } := rfl
@[simp] theorem setL_px (i : Fin 8) (v : Addr) : (s.setL i v).px = s.px := rfl
@[simp] theorem setL_seq (i : Fin 8) (v : Addr) : (s.setL i v).seq = s.seq := rfl
@[simp] theorem setL_st (i : Fin 8) (v : Addr) : (s.setL i v).st = s.st := rfl
@[simp] theorem setL_irq (i : Fin 8) (v : Addr) : (s.setL i v).irq = s.irq := rfl
@[simp] theorem setL_lat (i : Fin 8) (v : Addr) : (s.setL i v).lat = s.lat := rfl
@[simp] theorem setL_timer (i : Fin 8) (v : Addr) : (s.setL i v).timer = s.timer := rfl
@[simp] theorem setL_ctl (i : Fin 8) (v : Addr) : (s.setL i v).ctl = s.ctl := rfl
@[simp] theorem setL_sp0 (i : Fin 8) (v : Addr) : (s.setL i v).sp0 = s.sp0 := rfl
@[simp] theorem setL_sp1 (i : Fin 8) (v : Addr) : (s.setL i v).sp1 = s.sp1 := rfl
@[simp] theorem setL_mc (i : Fin 8) (v : Addr) : (s.setL i v).mc = s.mc := rfl
@[simp] theorem setL_bdma (i : Fin 8) (v : Addr) : (s.setL i v).bdma = s.bdma := rfl
@[simp] theorem setL_idma (i : Fin 8) (v : Addr) : (s.setL i v).idma = s.idma := rfl
@[simp] theorem setL_flags (i : Fin 8) (v : Addr) : (s.setL i v).flags = s.flags := rfl
@[simp] theorem setL_core (i : Fin 8) (v : Addr) : (s.setL i v).core = s.core := rfl
@[simp] theorem setL_pins (i : Fin 8) (v : Addr) : (s.setL i v).pins = s.pins := rfl
@[simp] theorem setL_br (i : Fin 8) (v : Addr) : (s.setL i v).br = s.br := rfl
@[simp] theorem setL_bg (i : Fin 8) (v : Addr) : (s.setL i v).bg = s.bg := rfl
@[simp] theorem setL_stalled (i : Fin 8) (v : Addr) : (s.setL i v).stalled = s.stalled := rfl
@[simp] theorem setL_held (i : Fin 8) (v : Addr) : (s.setL i v).held = s.held := rfl
@[simp] theorem setL_amid (i : Fin 8) (v : Addr) : (s.setL i v).amid = s.amid := rfl
@[simp] theorem setL_mem (i : Fin 8) (v : Addr) : (s.setL i v).mem = s.mem := rfl
@[simp] theorem setL_io (i : Fin 8) (v : Addr) : (s.setL i v).io = s.io := rfl
@[simp] theorem setL_env (i : Fin 8) (v : Addr) : (s.setL i v).env = s.env := rfl
@[simp] theorem setL_freeCtr (i : Fin 8) (v : Addr) : (s.setL i v).freeCtr = s.freeCtr := rfl
@[simp] theorem setL_clock (i : Fin 8) (v : Addr) : (s.setL i v).clock = s.clock := rfl

/-! ### State.setPx -/

@[simp] theorem setPx_cfg (v : BitVec 8) : (s.setPx v).cfg = s.cfg := rfl
@[simp] theorem setPx_pri (v : BitVec 8) : (s.setPx v).pri = s.pri := rfl
@[simp] theorem setPx_sec (v : BitVec 8) : (s.setPx v).sec = s.sec := rfl
@[simp] theorem setPx_dag (v : BitVec 8) : (s.setPx v).dag = s.dag := rfl
@[simp] theorem setPx_px (v : BitVec 8) : (s.setPx v).px = v := rfl
@[simp] theorem setPx_seq (v : BitVec 8) : (s.setPx v).seq = s.seq := rfl
@[simp] theorem setPx_st (v : BitVec 8) : (s.setPx v).st = s.st := rfl
@[simp] theorem setPx_irq (v : BitVec 8) : (s.setPx v).irq = s.irq := rfl
@[simp] theorem setPx_lat (v : BitVec 8) : (s.setPx v).lat = s.lat := rfl
@[simp] theorem setPx_timer (v : BitVec 8) : (s.setPx v).timer = s.timer := rfl
@[simp] theorem setPx_ctl (v : BitVec 8) : (s.setPx v).ctl = s.ctl := rfl
@[simp] theorem setPx_sp0 (v : BitVec 8) : (s.setPx v).sp0 = s.sp0 := rfl
@[simp] theorem setPx_sp1 (v : BitVec 8) : (s.setPx v).sp1 = s.sp1 := rfl
@[simp] theorem setPx_mc (v : BitVec 8) : (s.setPx v).mc = s.mc := rfl
@[simp] theorem setPx_bdma (v : BitVec 8) : (s.setPx v).bdma = s.bdma := rfl
@[simp] theorem setPx_idma (v : BitVec 8) : (s.setPx v).idma = s.idma := rfl
@[simp] theorem setPx_flags (v : BitVec 8) : (s.setPx v).flags = s.flags := rfl
@[simp] theorem setPx_core (v : BitVec 8) : (s.setPx v).core = s.core := rfl
@[simp] theorem setPx_pins (v : BitVec 8) : (s.setPx v).pins = s.pins := rfl
@[simp] theorem setPx_br (v : BitVec 8) : (s.setPx v).br = s.br := rfl
@[simp] theorem setPx_bg (v : BitVec 8) : (s.setPx v).bg = s.bg := rfl
@[simp] theorem setPx_stalled (v : BitVec 8) : (s.setPx v).stalled = s.stalled := rfl
@[simp] theorem setPx_held (v : BitVec 8) : (s.setPx v).held = s.held := rfl
@[simp] theorem setPx_amid (v : BitVec 8) : (s.setPx v).amid = s.amid := rfl
@[simp] theorem setPx_mem (v : BitVec 8) : (s.setPx v).mem = s.mem := rfl
@[simp] theorem setPx_io (v : BitVec 8) : (s.setPx v).io = s.io := rfl
@[simp] theorem setPx_env (v : BitVec 8) : (s.setPx v).env = s.env := rfl
@[simp] theorem setPx_freeCtr (v : BitVec 8) : (s.setPx v).freeCtr = s.freeCtr := rfl
@[simp] theorem setPx_clock (v : BitVec 8) : (s.setPx v).clock = s.clock := rfl

/-! ### State.setLatch -/

@[simp] theorem setLatch_cfg (k : Nat) : (s.setLatch k).cfg = s.cfg := rfl
@[simp] theorem setLatch_pri (k : Nat) : (s.setLatch k).pri = s.pri := rfl
@[simp] theorem setLatch_sec (k : Nat) : (s.setLatch k).sec = s.sec := rfl
@[simp] theorem setLatch_dag (k : Nat) : (s.setLatch k).dag = s.dag := rfl
@[simp] theorem setLatch_px (k : Nat) : (s.setLatch k).px = s.px := rfl
@[simp] theorem setLatch_seq (k : Nat) : (s.setLatch k).seq = s.seq := rfl
@[simp] theorem setLatch_st (k : Nat) : (s.setLatch k).st = s.st := rfl
@[simp] theorem setLatch_irq (k : Nat) : (s.setLatch k).irq = { s.irq with latch := putBit s.irq.latch k true } := rfl
@[simp] theorem setLatch_lat (k : Nat) : (s.setLatch k).lat = s.lat := rfl
@[simp] theorem setLatch_timer (k : Nat) : (s.setLatch k).timer = s.timer := rfl
@[simp] theorem setLatch_ctl (k : Nat) : (s.setLatch k).ctl = s.ctl := rfl
@[simp] theorem setLatch_sp0 (k : Nat) : (s.setLatch k).sp0 = s.sp0 := rfl
@[simp] theorem setLatch_sp1 (k : Nat) : (s.setLatch k).sp1 = s.sp1 := rfl
@[simp] theorem setLatch_mc (k : Nat) : (s.setLatch k).mc = s.mc := rfl
@[simp] theorem setLatch_bdma (k : Nat) : (s.setLatch k).bdma = s.bdma := rfl
@[simp] theorem setLatch_idma (k : Nat) : (s.setLatch k).idma = s.idma := rfl
@[simp] theorem setLatch_flags (k : Nat) : (s.setLatch k).flags = s.flags := rfl
@[simp] theorem setLatch_core (k : Nat) : (s.setLatch k).core = s.core := rfl
@[simp] theorem setLatch_pins (k : Nat) : (s.setLatch k).pins = s.pins := rfl
@[simp] theorem setLatch_br (k : Nat) : (s.setLatch k).br = s.br := rfl
@[simp] theorem setLatch_bg (k : Nat) : (s.setLatch k).bg = s.bg := rfl
@[simp] theorem setLatch_stalled (k : Nat) : (s.setLatch k).stalled = s.stalled := rfl
@[simp] theorem setLatch_held (k : Nat) : (s.setLatch k).held = s.held := rfl
@[simp] theorem setLatch_amid (k : Nat) : (s.setLatch k).amid = s.amid := rfl
@[simp] theorem setLatch_mem (k : Nat) : (s.setLatch k).mem = s.mem := rfl
@[simp] theorem setLatch_io (k : Nat) : (s.setLatch k).io = s.io := rfl
@[simp] theorem setLatch_env (k : Nat) : (s.setLatch k).env = s.env := rfl
@[simp] theorem setLatch_freeCtr (k : Nat) : (s.setLatch k).freeCtr = s.freeCtr := rfl
@[simp] theorem setLatch_clock (k : Nat) : (s.setLatch k).clock = s.clock := rfl

/-! ### State.setIdma -/

@[simp] theorem setIdma_cfg (d : Idma) : (s.setIdma d).cfg = s.cfg := rfl
@[simp] theorem setIdma_pri (d : Idma) : (s.setIdma d).pri = s.pri := rfl
@[simp] theorem setIdma_sec (d : Idma) : (s.setIdma d).sec = s.sec := rfl
@[simp] theorem setIdma_dag (d : Idma) : (s.setIdma d).dag = s.dag := rfl
@[simp] theorem setIdma_px (d : Idma) : (s.setIdma d).px = s.px := rfl
@[simp] theorem setIdma_seq (d : Idma) : (s.setIdma d).seq = s.seq := rfl
@[simp] theorem setIdma_st (d : Idma) : (s.setIdma d).st = s.st := rfl
@[simp] theorem setIdma_irq (d : Idma) : (s.setIdma d).irq = s.irq := rfl
@[simp] theorem setIdma_lat (d : Idma) : (s.setIdma d).lat = s.lat := rfl
@[simp] theorem setIdma_timer (d : Idma) : (s.setIdma d).timer = s.timer := rfl
@[simp] theorem setIdma_ctl (d : Idma) : (s.setIdma d).ctl = s.ctl := rfl
@[simp] theorem setIdma_sp0 (d : Idma) : (s.setIdma d).sp0 = s.sp0 := rfl
@[simp] theorem setIdma_sp1 (d : Idma) : (s.setIdma d).sp1 = s.sp1 := rfl
@[simp] theorem setIdma_mc (d : Idma) : (s.setIdma d).mc = s.mc := rfl
@[simp] theorem setIdma_bdma (d : Idma) : (s.setIdma d).bdma = s.bdma := rfl
@[simp] theorem setIdma_idma (d : Idma) : (s.setIdma d).idma = d := rfl
@[simp] theorem setIdma_flags (d : Idma) : (s.setIdma d).flags = s.flags := rfl
@[simp] theorem setIdma_core (d : Idma) : (s.setIdma d).core = s.core := rfl
@[simp] theorem setIdma_pins (d : Idma) : (s.setIdma d).pins = s.pins := rfl
@[simp] theorem setIdma_br (d : Idma) : (s.setIdma d).br = s.br := rfl
@[simp] theorem setIdma_bg (d : Idma) : (s.setIdma d).bg = s.bg := rfl
@[simp] theorem setIdma_stalled (d : Idma) : (s.setIdma d).stalled = s.stalled := rfl
@[simp] theorem setIdma_held (d : Idma) : (s.setIdma d).held = s.held := rfl
@[simp] theorem setIdma_amid (d : Idma) : (s.setIdma d).amid = s.amid := rfl
@[simp] theorem setIdma_mem (d : Idma) : (s.setIdma d).mem = s.mem := rfl
@[simp] theorem setIdma_io (d : Idma) : (s.setIdma d).io = s.io := rfl
@[simp] theorem setIdma_env (d : Idma) : (s.setIdma d).env = s.env := rfl
@[simp] theorem setIdma_freeCtr (d : Idma) : (s.setIdma d).freeCtr = s.freeCtr := rfl
@[simp] theorem setIdma_clock (d : Idma) : (s.setIdma d).clock = s.clock := rfl

/-! ### State.count -/

@[simp] theorem count_cfg (n : Nat) : (s.count n).cfg = s.cfg := rfl
@[simp] theorem count_pri (n : Nat) : (s.count n).pri = s.pri := rfl
@[simp] theorem count_sec (n : Nat) : (s.count n).sec = s.sec := rfl
@[simp] theorem count_dag (n : Nat) : (s.count n).dag = s.dag := rfl
@[simp] theorem count_px (n : Nat) : (s.count n).px = s.px := rfl
@[simp] theorem count_seq (n : Nat) : (s.count n).seq = s.seq := rfl
@[simp] theorem count_st (n : Nat) : (s.count n).st = s.st := rfl
@[simp] theorem count_irq (n : Nat) : (s.count n).irq = s.irq := rfl
@[simp] theorem count_lat (n : Nat) : (s.count n).lat = s.lat := rfl
@[simp] theorem count_timer (n : Nat) : (s.count n).timer = s.timer := rfl
@[simp] theorem count_ctl (n : Nat) : (s.count n).ctl = s.ctl := rfl
@[simp] theorem count_sp0 (n : Nat) : (s.count n).sp0 = s.sp0 := rfl
@[simp] theorem count_sp1 (n : Nat) : (s.count n).sp1 = s.sp1 := rfl
@[simp] theorem count_mc (n : Nat) : (s.count n).mc = s.mc := rfl
@[simp] theorem count_bdma (n : Nat) : (s.count n).bdma = s.bdma := rfl
@[simp] theorem count_idma (n : Nat) : (s.count n).idma = s.idma := rfl
@[simp] theorem count_flags (n : Nat) : (s.count n).flags = s.flags := rfl
@[simp] theorem count_core (n : Nat) : (s.count n).core = s.core := rfl
@[simp] theorem count_pins (n : Nat) : (s.count n).pins = s.pins := rfl
@[simp] theorem count_br (n : Nat) : (s.count n).br = s.br := rfl
@[simp] theorem count_bg (n : Nat) : (s.count n).bg = s.bg := rfl
@[simp] theorem count_stalled (n : Nat) : (s.count n).stalled = s.stalled := rfl
@[simp] theorem count_held (n : Nat) : (s.count n).held = s.held := rfl
@[simp] theorem count_amid (n : Nat) : (s.count n).amid = s.amid := rfl
@[simp] theorem count_mem (n : Nat) : (s.count n).mem = s.mem := rfl
@[simp] theorem count_io (n : Nat) : (s.count n).io = s.io := rfl
@[simp] theorem count_env (n : Nat) : (s.count n).env = s.env := rfl
@[simp] theorem count_freeCtr (n : Nat) : (s.count n).freeCtr = s.freeCtr + 1 := rfl
@[simp] theorem count_clock (n : Nat) : (s.count n).clock = s.clock + n := rfl

/-! ### State.setBank: one of the two banks -/

@[simp] theorem setBank_cfg (b : Bank) : (s.setBank b).cfg = s.cfg := by unfold State.setBank; split <;> rfl
@[simp] theorem setBank_dag (b : Bank) : (s.setBank b).dag = s.dag := by unfold State.setBank; split <;> rfl
@[simp] theorem setBank_px (b : Bank) : (s.setBank b).px = s.px := by unfold State.setBank; split <;> rfl
@[simp] theorem setBank_seq (b : Bank) : (s.setBank b).seq = s.seq := by unfold State.setBank; split <;> rfl
@[simp] theorem setBank_st (b : Bank) : (s.setBank b).st = s.st := by unfold State.setBank; split <;> rfl
@[simp] theorem setBank_irq (b : Bank) : (s.setBank b).irq = s.irq := by unfold State.setBank; split <;> rfl
@[simp] theorem setBank_lat (b : Bank) : (s.setBank b).lat = s.lat := by unfold State.setBank; split <;> rfl
@[simp] theorem setBank_timer (b : Bank) : (s.setBank b).timer = s.timer := by unfold State.setBank; split <;> rfl
@[simp] theorem setBank_ctl (b : Bank) : (s.setBank b).ctl = s.ctl := by unfold State.setBank; split <;> rfl
@[simp] theorem setBank_sp0 (b : Bank) : (s.setBank b).sp0 = s.sp0 := by unfold State.setBank; split <;> rfl
@[simp] theorem setBank_sp1 (b : Bank) : (s.setBank b).sp1 = s.sp1 := by unfold State.setBank; split <;> rfl
@[simp] theorem setBank_mc (b : Bank) : (s.setBank b).mc = s.mc := by unfold State.setBank; split <;> rfl
@[simp] theorem setBank_bdma (b : Bank) : (s.setBank b).bdma = s.bdma := by unfold State.setBank; split <;> rfl
@[simp] theorem setBank_idma (b : Bank) : (s.setBank b).idma = s.idma := by unfold State.setBank; split <;> rfl
@[simp] theorem setBank_flags (b : Bank) : (s.setBank b).flags = s.flags := by unfold State.setBank; split <;> rfl
@[simp] theorem setBank_core (b : Bank) : (s.setBank b).core = s.core := by unfold State.setBank; split <;> rfl
@[simp] theorem setBank_pins (b : Bank) : (s.setBank b).pins = s.pins := by unfold State.setBank; split <;> rfl
@[simp] theorem setBank_br (b : Bank) : (s.setBank b).br = s.br := by unfold State.setBank; split <;> rfl
@[simp] theorem setBank_bg (b : Bank) : (s.setBank b).bg = s.bg := by unfold State.setBank; split <;> rfl
@[simp] theorem setBank_stalled (b : Bank) : (s.setBank b).stalled = s.stalled := by unfold State.setBank; split <;> rfl
@[simp] theorem setBank_held (b : Bank) : (s.setBank b).held = s.held := by unfold State.setBank; split <;> rfl
@[simp] theorem setBank_amid (b : Bank) : (s.setBank b).amid = s.amid := by unfold State.setBank; split <;> rfl
@[simp] theorem setBank_mem (b : Bank) : (s.setBank b).mem = s.mem := by unfold State.setBank; split <;> rfl
@[simp] theorem setBank_io (b : Bank) : (s.setBank b).io = s.io := by unfold State.setBank; split <;> rfl
@[simp] theorem setBank_env (b : Bank) : (s.setBank b).env = s.env := by unfold State.setBank; split <;> rfl
@[simp] theorem setBank_freeCtr (b : Bank) : (s.setBank b).freeCtr = s.freeCtr := by unfold State.setBank; split <;> rfl
@[simp] theorem setBank_clock (b : Bank) : (s.setBank b).clock = s.clock := by unfold State.setBank; split <;> rfl

@[simp] theorem setBank_bank (b : Bank) : (s.setBank b).bank = b := by
  unfold State.setBank State.bank State.secReg; split <;> simp_all

/-- The bank that is not selected keeps its values (10_state.md R22). -/
theorem setBank_other (b : Bank) :
    (s.setBank b).sec = (if s.secReg then b else s.sec) ∧ (s.setBank b).pri = (if s.secReg then s.pri else b) := by
  unfold State.setBank; split <;> simp_all

/-! ### The active bank after the other updates -/

@[simp] theorem setPc_bank (a : Addr) : (s.setPc a).bank = s.bank := rfl
@[simp] theorem setPcStk_bank (k : Stack Addr) : (s.setPcStk k).bank = s.bank := rfl
@[simp] theorem setLoopStk_bank (k : Stack LoopEntry) : (s.setLoopStk k).bank = s.bank := rfl
@[simp] theorem setCntStk_bank (k : Stack Addr) : (s.setCntStk k).bank = s.bank := rfl
@[simp] theorem setStsStk_bank (k : Stack StsEntry) : (s.setStsStk k).bank = s.bank := rfl
@[simp] theorem setCntr_bank (v : Addr) (b : Bool) : (s.setCntr v b).bank = s.bank := rfl
@[simp] theorem setAstat_bank (a : BitVec 8) : (s.setAstat a).bank = s.bank := rfl
@[simp] theorem setI_bank (i : Fin 8) (v : Addr) : (s.setI i v).bank = s.bank := rfl
@[simp] theorem setM_bank (i : Fin 8) (v : Addr) : (s.setM i v).bank = s.bank := rfl
@[simp] theorem setL_bank (i : Fin 8) (v : Addr) : (s.setL i v).bank = s.bank := rfl
@[simp] theorem setPx_bank (v : BitVec 8) : (s.setPx v).bank = s.bank := rfl
@[simp] theorem setLatch_bank (k : Nat) : (s.setLatch k).bank = s.bank := rfl
@[simp] theorem setIdma_bank (d : Idma) : (s.setIdma d).bank = s.bank := rfl
@[simp] theorem count_bank (n : Nat) : (s.count n).bank = s.bank := rfl

/-! ### State.loadDreg -/

@[simp] theorem loadDreg_bank (d : Dreg) (v : Word) : (s.loadDreg d v).bank = s.bank.setDreg d v := by
  simp [State.loadDreg]

/-! ### Serial ports -/

@[simp] theorem setSport_cfg (n : Fin 2) (p : Sport) : (s.setSport n p).cfg = s.cfg := by unfold State.setSport; split <;> rfl
@[simp] theorem setSport_pri (n : Fin 2) (p : Sport) : (s.setSport n p).pri = s.pri := by unfold State.setSport; split <;> rfl
@[simp] theorem setSport_sec (n : Fin 2) (p : Sport) : (s.setSport n p).sec = s.sec := by unfold State.setSport; split <;> rfl
@[simp] theorem setSport_dag (n : Fin 2) (p : Sport) : (s.setSport n p).dag = s.dag := by unfold State.setSport; split <;> rfl
@[simp] theorem setSport_px (n : Fin 2) (p : Sport) : (s.setSport n p).px = s.px := by unfold State.setSport; split <;> rfl
@[simp] theorem setSport_seq (n : Fin 2) (p : Sport) : (s.setSport n p).seq = s.seq := by unfold State.setSport; split <;> rfl
@[simp] theorem setSport_st (n : Fin 2) (p : Sport) : (s.setSport n p).st = s.st := by unfold State.setSport; split <;> rfl
@[simp] theorem setSport_irq (n : Fin 2) (p : Sport) : (s.setSport n p).irq = s.irq := by unfold State.setSport; split <;> rfl
@[simp] theorem setSport_lat (n : Fin 2) (p : Sport) : (s.setSport n p).lat = s.lat := by unfold State.setSport; split <;> rfl
@[simp] theorem setSport_timer (n : Fin 2) (p : Sport) : (s.setSport n p).timer = s.timer := by unfold State.setSport; split <;> rfl
@[simp] theorem setSport_ctl (n : Fin 2) (p : Sport) : (s.setSport n p).ctl = s.ctl := by unfold State.setSport; split <;> rfl
@[simp] theorem setSport_mc (n : Fin 2) (p : Sport) : (s.setSport n p).mc = s.mc := by unfold State.setSport; split <;> rfl
@[simp] theorem setSport_bdma (n : Fin 2) (p : Sport) : (s.setSport n p).bdma = s.bdma := by unfold State.setSport; split <;> rfl
@[simp] theorem setSport_idma (n : Fin 2) (p : Sport) : (s.setSport n p).idma = s.idma := by unfold State.setSport; split <;> rfl
@[simp] theorem setSport_flags (n : Fin 2) (p : Sport) : (s.setSport n p).flags = s.flags := by unfold State.setSport; split <;> rfl
@[simp] theorem setSport_core (n : Fin 2) (p : Sport) : (s.setSport n p).core = s.core := by unfold State.setSport; split <;> rfl
@[simp] theorem setSport_pins (n : Fin 2) (p : Sport) : (s.setSport n p).pins = s.pins := by unfold State.setSport; split <;> rfl
@[simp] theorem setSport_br (n : Fin 2) (p : Sport) : (s.setSport n p).br = s.br := by unfold State.setSport; split <;> rfl
@[simp] theorem setSport_bg (n : Fin 2) (p : Sport) : (s.setSport n p).bg = s.bg := by unfold State.setSport; split <;> rfl
@[simp] theorem setSport_stalled (n : Fin 2) (p : Sport) : (s.setSport n p).stalled = s.stalled := by unfold State.setSport; split <;> rfl
@[simp] theorem setSport_held (n : Fin 2) (p : Sport) : (s.setSport n p).held = s.held := by unfold State.setSport; split <;> rfl
@[simp] theorem setSport_amid (n : Fin 2) (p : Sport) : (s.setSport n p).amid = s.amid := by unfold State.setSport; split <;> rfl
@[simp] theorem setSport_mem (n : Fin 2) (p : Sport) : (s.setSport n p).mem = s.mem := by unfold State.setSport; split <;> rfl
@[simp] theorem setSport_io (n : Fin 2) (p : Sport) : (s.setSport n p).io = s.io := by unfold State.setSport; split <;> rfl
@[simp] theorem setSport_env (n : Fin 2) (p : Sport) : (s.setSport n p).env = s.env := by unfold State.setSport; split <;> rfl
@[simp] theorem setSport_freeCtr (n : Fin 2) (p : Sport) : (s.setSport n p).freeCtr = s.freeCtr := by unfold State.setSport; split <;> rfl
@[simp] theorem setSport_clock (n : Fin 2) (p : Sport) : (s.setSport n p).clock = s.clock := by unfold State.setSport; split <;> rfl

end Sys2Proof.Machine
end

