-- ==== Sys2Proof/Laws/Flow.lean ====
section
/-!
SUPPORT. What the sequencing step can do: it reads only the sequencer, the one-cycle actions and the free counter of the state
after the instruction, and it changes only the first two.
-/

namespace Sys2Proof.Machine

/-! ### Only the sequencer moves -/

theorem OnlyFlow.trans {s t u : State} (h : OnlyFlow s t) (k : OnlyFlow t u) : OnlyFlow s u := by
  unfold OnlyFlow at *
  rw [k, h]

theorem setPc_onlyFlow (s : State) (a : Addr) : OnlyFlow s (s.setPc a) := rfl
theorem setPcStk_onlyFlow (s : State) (k : Stack Addr) : OnlyFlow s (s.setPcStk k) := rfl
theorem setLoopStk_onlyFlow (s : State) (k : Stack LoopEntry) : OnlyFlow s (s.setLoopStk k) := rfl
theorem setCntStk_onlyFlow (s : State) (k : Stack Addr) : OnlyFlow s (s.setCntStk k) := rfl
theorem setCntr_onlyFlow (s : State) (v : Addr) (b : Bool) : OnlyFlow s (s.setCntr v b) := rfl

theorem loopTo_onlyFlow (s t : State) (b : Bool) : OnlyFlow t (s.loopTo t b) := by
  unfold State.loopTo
  split
  · exact ((setLoopStk_onlyFlow _ _).trans (setPcStk_onlyFlow _ _)).trans (setPc_onlyFlow _ _)
  · exact (setPcStk_onlyFlow _ _).trans (setPc_onlyFlow _ _)

theorem countCe_onlyFlow (s : State) : OnlyFlow s s.countCe := by
  unfold State.countCe
  split
  · split <;> rfl
  · rfl

theorem loopEnd_onlyFlow (s t : State) : OnlyFlow t (s.loopEnd t) := by
  unfold State.loopEnd
  split
  · exact (countCe_onlyFlow t).trans (loopTo_onlyFlow _ _ _)
  · exact loopTo_onlyFlow _ _ _

theorem anySstat_onlyFlow (s : State) : OnlyFlow s s.anySstat := rfl

theorem openExit_onlyFlow (s : State) : OnlyFlow s s.openExit := by
  unfold State.openExit
  dsimp only
  split
  · exact (setCntStk_onlyFlow _ _).trans (setCntr_onlyFlow _ _ _)
  · exact setCntr_onlyFlow _ _ _

theorem loopClash_onlyFlow (s t : State) : OnlyFlow t (s.loopClash t) := by
  unfold State.loopClash
  have h1 (u : State) (b : Bool) : OnlyFlow u (if b then u.anyPcStk else u) := by cases b <;> rfl
  have h2 (u : State) (b : Bool) : OnlyFlow u (if b then u.anyLoopStk else u) := by cases b <;> rfl
  have h3 (u : State) (b : Bool) : OnlyFlow u (if b then u.anyCntStk else u) := by cases b <;> rfl
  have h5 (u : State) (b : Bool) : OnlyFlow u (if b then u.openExit else u) := by
    cases b
    · rfl
    · exact openExit_onlyFlow u
  have h6 (u : State) (b : Bool) : OnlyFlow u (if b then u.anySstat else u) := by cases b <;> rfl
  exact ((((((h1 _ _).trans (h2 _ _)).trans (h3 _ _)).trans (setCntr_onlyFlow _ _ _)).trans (h5 _ _)).trans
    (loopTo_onlyFlow _ _ _)).trans (h6 _ _)

/-- The sequencing step moves only the sequencer and the one-cycle actions. -/
theorem advance_onlyFlow (s t : State) : OnlyFlow t (s.advance t) := by
  unfold State.advance
  split
  · split
    · exact loopClash_onlyFlow s t
    · exact loopEnd_onlyFlow s t
  · exact setPc_onlyFlow _ _

/-- Of the one-cycle actions, the sequencing step marks only what the instruction uses. -/
theorem loopTo_lat (s t : State) (b : Bool) : (s.loopTo t b).lat = { t.lat with use := (s.loopTo t b).lat.use } := by
  unfold State.loopTo
  split <;> rfl

theorem countCe_lat (s : State) : s.countCe.lat = s.lat := by
  unfold State.countCe
  split
  · split <;> rfl
  · rfl

theorem openExit_lat (s : State) : s.openExit.lat = { s.lat with use := s.openExit.lat.use } := by
  unfold State.openExit
  dsimp only
  split <;> rfl

theorem loopClash_lat (s t : State) : (s.loopClash t).lat = { t.lat with use := (s.loopClash t).lat.use } := by
  unfold State.loopClash
  have h1 (u : State) (b : Bool) : (if b then u.anyPcStk else u).lat =
      { u.lat with use := (if b then u.anyPcStk else u).lat.use } := by cases b <;> rfl
  have h2 (u : State) (b : Bool) : (if b then u.anyLoopStk else u).lat =
      { u.lat with use := (if b then u.anyLoopStk else u).lat.use } := by cases b <;> rfl
  have h3 (u : State) (b : Bool) : (if b then u.anyCntStk else u).lat =
      { u.lat with use := (if b then u.anyCntStk else u).lat.use } := by cases b <;> rfl
  have h5 (u : State) (b : Bool) : (if b then u.openExit else u).lat =
      { u.lat with use := (if b then u.openExit else u).lat.use } := by
    cases b
    · rfl
    · exact openExit_lat u
  have h6 (u : State) (b : Bool) : (if b then u.anySstat else u).lat = u.lat := by cases b <;> rfl
  dsimp only
  rw [h6, loopTo_lat, h5, setCntr_lat, h3, h2, h1]

theorem advance_lat (s t : State) : (s.advance t).lat = { t.lat with use := (s.advance t).lat.use } := by
  unfold State.advance
  split
  · split
    · exact loopClash_lat s t
    · unfold State.loopEnd
      split
      · rw [loopTo_lat, countCe_lat]
      · exact loopTo_lat _ _ _
  · rfl

/-! ### What the sequencing step reads -/

/-- Two states agree on what the sequencing step reads. -/
structure FlowEq (t u : State) : Prop where
  seq : t.seq = u.seq
  use : t.lat.use = u.lat.use
  free : t.freeCtr = u.freeCtr

theorem FlowEq.setPc {t u : State} (h : FlowEq t u) (a : Addr) : FlowEq (t.setPc a) (u.setPc a) :=
  ⟨by simp [State.setPc, h.seq], h.use, h.free⟩
theorem FlowEq.setPcStk {t u : State} (h : FlowEq t u) (k : Stack Addr) : FlowEq (t.setPcStk k) (u.setPcStk k) :=
  ⟨by simp [State.setPcStk, h.seq], by simp [State.setPcStk, h.use], h.free⟩
theorem FlowEq.setLoopStk {t u : State} (h : FlowEq t u) (k : Stack LoopEntry) :
    FlowEq (t.setLoopStk k) (u.setLoopStk k) :=
  ⟨by simp [State.setLoopStk, h.seq], by simp [State.setLoopStk, h.use], h.free⟩
theorem FlowEq.setCntStk {t u : State} (h : FlowEq t u) (k : Stack Addr) : FlowEq (t.setCntStk k) (u.setCntStk k) :=
  ⟨by simp [State.setCntStk, h.seq], by simp [State.setCntStk, h.use], h.free⟩
theorem FlowEq.setCntr {t u : State} (h : FlowEq t u) (v : Addr) (b : Bool) : FlowEq (t.setCntr v b) (u.setCntr v b) :=
  ⟨by simp [State.setCntr, h.seq], by simp [State.setCntr, h.use], h.free⟩

theorem FlowEq.topPc {t u : State} (h : FlowEq t u) : t.topPc = u.topPc := by
  simp [State.topPc, State.freePc, h.seq, h.free]

theorem FlowEq.popLoop {t u : State} (h : FlowEq t u) : FlowEq t.popLoop u.popLoop := by
  unfold State.popLoop
  rw [h.seq]
  exact h.setLoopStk _

theorem FlowEq.popPc {t u : State} (h : FlowEq t u) : FlowEq t.popPc u.popPc := by
  unfold State.popPc
  rw [h.seq]
  exact h.setPcStk _

theorem FlowEq.loopTo {t u : State} (h : FlowEq t u) (s : State) (b : Bool) : FlowEq (s.loopTo t b) (s.loopTo u b) := by
  unfold State.loopTo
  cases b
  · simp only [Bool.false_eq_true, if_false]
    rw [h.topPc, h.seq]
    exact (h.setPcStk _).setPc _
  · exact h.popLoop.popPc.setPc _

theorem FlowEq.countCe {t u : State} (h : FlowEq t u) : FlowEq t.countCe u.countCe := by
  unfold State.countCe State.ce
  rw [h.seq, h.free]
  split
  · split
    · exact ⟨rfl, h.use, rfl⟩
    · exact ⟨rfl, h.use, rfl⟩
  · exact ⟨rfl, h.use, rfl⟩

theorem FlowEq.loopEnd {t u : State} (h : FlowEq t u) (s : State) : FlowEq (s.loopEnd t) (s.loopEnd u) := by
  unfold State.loopEnd
  split
  · exact h.countCe.loopTo s _
  · exact h.loopTo s _

theorem freeLoop_congr {t u : State} (h : t.freeCtr = u.freeCtr) : t.freeLoop = u.freeLoop := by
  funext j
  simp [State.freeLoop, h]

theorem FlowEq.anyPcStk {t u : State} (h : FlowEq t u) (b : Bool) :
    FlowEq (if b then t.anyPcStk else t) (if b then u.anyPcStk else u) := by
  cases b
  · exact h
  · simp only [State.anyPcStk, if_true, h.free]
    exact h.setPcStk _

theorem FlowEq.anyLoopStk {t u : State} (h : FlowEq t u) (b : Bool) :
    FlowEq (if b then t.anyLoopStk else t) (if b then u.anyLoopStk else u) := by
  cases b
  · exact h
  · simp only [State.anyLoopStk, if_true, h.free, freeLoop_congr h.free]
    exact h.setLoopStk _

theorem FlowEq.anyCntStk {t u : State} (h : FlowEq t u) (b : Bool) :
    FlowEq (if b then t.anyCntStk else t) (if b then u.anyCntStk else u) := by
  cases b
  · exact h
  · simp only [State.anyCntStk, if_true, h.free]
    exact h.setCntStk _

theorem FlowEq.anySstat {t u : State} (h : FlowEq t u) (b : Bool) :
    FlowEq (if b then t.anySstat else t) (if b then u.anySstat else u) := by
  cases b
  · exact h
  · exact ⟨by simp [State.anySstat, h.seq, h.free], h.use, h.free⟩

theorem FlowEq.openExit {t u : State} (h : FlowEq t u) (b : Bool) :
    FlowEq (if b then t.openExit else t) (if b then u.openExit else u) := by
  cases b
  · exact h
  · simp only [if_true, State.openExit, h.free, h.seq]
    split
    · simpa only [setCntStk_seq, h.seq] using (h.setCntStk _).setCntr _ _
    · simpa only [h.seq] using h.setCntr _ _

theorem FlowEq.loopClash {t u : State} (h : FlowEq t u) (s : State) : FlowEq (s.loopClash t) (s.loopClash u) := by
  unfold State.loopClash
  simp only [h.use]
  have k := ((h.anyPcStk u.lat.use.pcStack).anyLoopStk u.lat.use.loop).anyCntStk u.lat.use.count
  refine FlowEq.anySstat (FlowEq.loopTo (FlowEq.openExit ?_ _) s _) _
  rw [k.seq]
  exact k.setCntr _ _

/-- The sequencing step of two states that agree on what it reads. -/
theorem FlowEq.advance {t u : State} (h : FlowEq t u) (s : State) : FlowEq (s.advance t) (s.advance u) := by
  unfold State.advance State.loopCollides
  rw [h.use]
  split
  · split
    · exact h.loopClash s
    · exact h.loopEnd s
  · exact h.setPc _

/-! ### An instruction's end -/

/-- An instruction whose own effect leaves the sequencer and the one-cycle actions alone advances as a NOP does. -/
theorem advance_sameFlow {s t : State} (h : FlowEq t s) (hl : t.lat = s.lat) : SameFlow s (s.advance t) := by
  refine ⟨(h.advance s).seq, ?_⟩
  rw [advance_lat, hl, advance_lat s s, (h.advance s).use]

/-- The devices after the sequencing step are those of the instruction's own effect. -/
theorem advance_sameDevices {s t : State} (h : SameDevices s t) : SameDevices s (s.advance t) := by
  have k := advance_onlyFlow s t
  unfold OnlyFlow at k
  rw [k]
  exact ⟨h.cfg, h.irq, h.timer, h.ctl, h.sp0, h.sp1, h.mc, h.bdma, h.idma, h.flags, h.core, h.pins, h.br, h.bg, h.stalled,
    h.held, h.amid, h.io, h.env, h.freeCtr, h.clock⟩

theorem advance_eq (s t : State) : s.advance t = { t with seq := (s.advance t).seq, lat := (s.advance t).lat } :=
  advance_onlyFlow s t

/-- What the sequencing step leaves to the instruction: the registers, the status, memory. -/
@[simp] theorem advance_pri (s t : State) : (s.advance t).pri = t.pri := by rw [advance_eq]
@[simp] theorem advance_sec (s t : State) : (s.advance t).sec = t.sec := by rw [advance_eq]
@[simp] theorem advance_dag (s t : State) : (s.advance t).dag = t.dag := by rw [advance_eq]
@[simp] theorem advance_px (s t : State) : (s.advance t).px = t.px := by rw [advance_eq]
@[simp] theorem advance_st (s t : State) : (s.advance t).st = t.st := by rw [advance_eq]
@[simp] theorem advance_irq (s t : State) : (s.advance t).irq = t.irq := by rw [advance_eq]
@[simp] theorem advance_cfg (s t : State) : (s.advance t).cfg = t.cfg := by rw [advance_eq]
@[simp] theorem advance_sp0 (s t : State) : (s.advance t).sp0 = t.sp0 := by rw [advance_eq]
@[simp] theorem advance_sp1 (s t : State) : (s.advance t).sp1 = t.sp1 := by rw [advance_eq]
@[simp] theorem advance_flags (s t : State) : (s.advance t).flags = t.flags := by rw [advance_eq]
@[simp] theorem advance_core (s t : State) : (s.advance t).core = t.core := by rw [advance_eq]
@[simp] theorem advance_mem (s t : State) : (s.advance t).mem = t.mem := by rw [advance_eq]
@[simp] theorem advance_io (s t : State) : (s.advance t).io = t.io := by rw [advance_eq]
@[simp] theorem advance_freeCtr (s t : State) : (s.advance t).freeCtr = t.freeCtr :=
  by rw [advance_eq]

@[simp] theorem advance_secReg (s t : State) : (s.advance t).secReg = t.secReg := by simp [State.secReg]
@[simp] theorem advance_bank (s t : State) : (s.advance t).bank = t.bank := by simp [State.bank]

end Sys2Proof.Machine
end

