-- ==== Sys2Proof/Laws/Frame.lean ====
section
/-!
SUPPORT. Frames of the shared shapes of an instruction: a new active bank and a new ASTAT, and nothing else.
-/

namespace Sys2Proof.Machine

/-- Only the active bank and ASTAT of a state replaced. -/
def State.commit (s : State) (b : Bank) (a : BitVec 8) : State := (s.setBank b).setAstat a

@[simp] theorem commit_bank (s : State) (b : Bank) (a : BitVec 8) : (s.commit b a).bank = b := by simp [State.commit]
@[simp] theorem commit_st (s : State) (b : Bank) (a : BitVec 8) : (s.commit b a).st = { s.st with astat := a } := by
  simp [State.commit]
@[simp] theorem commit_mem (s : State) (b : Bank) (a : BitVec 8) : (s.commit b a).mem = s.mem := by simp [State.commit]
@[simp] theorem commit_dag (s : State) (b : Bank) (a : BitVec 8) : (s.commit b a).dag = s.dag := by simp [State.commit]
@[simp] theorem commit_px (s : State) (b : Bank) (a : BitVec 8) : (s.commit b a).px = s.px := by simp [State.commit]

theorem commit_flowEq (s : State) (b : Bank) (a : BitVec 8) : FlowEq (s.commit b a) s :=
  ⟨by simp [State.commit], by simp [State.commit], by simp [State.commit]⟩

theorem commit_sameDevices (s : State) (b : Bank) (a : BitVec 8) : SameDevices s (s.commit b a) := by
  constructor <;> simp [State.commit]

theorem commit_sameOtherBank (s : State) (b : Bank) (a : BitVec 8) : SameOtherBank s (s.commit b a) := by
  unfold SameOtherBank State.commit State.setBank
  split <;> rfl

/-- A bank and ASTAT replaced by themselves. -/
theorem commit_self (s : State) : s.commit s.bank s.st.astat = s := by
  unfold State.commit State.setBank State.bank
  split <;> rfl

/-- An instruction that replaces the active bank and ASTAT, and then advances, changes nothing else. -/
theorem commit_regFrame (s : State) (b : Bank) (a : BitVec 8) : RegFrame s (s.advance (s.commit b a)) := by
  refine ⟨⟨advance_sameDevices (commit_sameDevices s b a), advance_sameFlow (commit_flowEq s b a) (by simp [State.commit]), ?_, ?_⟩, ?_, ?_, ?_⟩
  · have h := commit_sameOtherBank s b a
    unfold SameOtherBank at *
    simpa using h
  · simp
  · intro k
    simp
  · simp
  · simp

/-- Such an instruction completes; what holds of its bank and its ASTAT is what is to be shown. -/
theorem completes_commit {i : Instr} {s : State} {b : Bank} {a : BitVec 8} {P : State → Prop}
    (h : exec i s = .next (s.advance (s.commit b a))) (hp : P (s.advance (s.commit b a))) :
    Completes i s (fun t => RegFrame s t ∧ P t) :=
  ⟨_, h, commit_regFrame s b a, hp⟩

end Sys2Proof.Machine
end

