-- ==== Sys2Proof/Laws/Alu.lean ====
section
/-!
SUPPORT. The ALU computes what exact arithmetic gives: the adder against exact sums and differences, and an ALU function
committed to a state.
-/

namespace Sys2Proof.Machine

/-! ### Words as numbers -/

theorem sign_bit (a : Word) : a.getLsbD 15 = decide (32768 ≤ a.toNat) := by
  have h := BitVec.msb_eq_decide a
  rw [BitVec.msb_eq_getLsbD_last] at h
  simpa using h

theorem word_toInt (a : Word) : a.toInt = if a.toNat < 32768 then (a.toNat : Int) else a.toNat - 65536 := by
  have h := a.isLt
  rw [BitVec.toInt_eq_toNat_cond]
  split <;> split <;> omega

theorem word_not_toNat (a : Word) : (~~~a).toNat = 65535 - a.toNat := by
  simp [BitVec.toNat_not]

theorem bool_toNat_le (c : Bool) : c.toNat ≤ 1 := by cases c <;> simp

/-! ### The adder -/

theorem add3_r (a b : Word) (c : Bool) : (add3 a b c).r = a + b + BitVec.ofNat 16 c.toNat := by
  apply BitVec.eq_of_toNat_eq
  have := bool_toNat_le c
  simp [add3, BitVec.toNat_add]

theorem add3_zero (a b : Word) (c : Bool) : (add3 a b c).az = ((add3 a b c).r == 0) := rfl
theorem add3_neg (a b : Word) (c : Bool) : (add3 a b c).an = (add3 a b c).r.getLsbD 15 := rfl

theorem add3_toNat (a b : Word) (c : Bool) : (add3 a b c).r.toNat = (a.toNat + b.toNat + c.toNat) % 65536 := by
  simp [add3]

theorem add3_ovf (a b : Word) (c : Bool) : (add3 a b c).ovf = overflows (a.toInt + b.toInt + c.toNat) := by
  have hr := add3_toNat a b c
  have e : (add3 a b c).ovf =
    ((a.getLsbD 15 ^^ (add3 a b c).r.getLsbD 15) && (b.getLsbD 15 ^^ (add3 a b c).r.getLsbD 15)) := rfl
  rw [e, sign_bit, sign_bit, sign_bit, hr, word_toInt a, word_toInt b, Bool.eq_iff_iff]
  have ha := a.isLt
  have hb := b.isLt
  have hc := bool_toNat_le c
  generalize a.toNat = m at *
  generalize b.toNat = n at *
  generalize c.toNat = k at *
  simp only [overflows, Bool.and_eq_true, bne_iff_ne, Bool.or_eq_true, decide_eq_true_eq]
  by_cases h1 : 32768 ≤ m <;> by_cases h2 : 32768 ≤ n <;> by_cases h3 : 32768 ≤ (m + n + k) % 65536 <;>
    simp [h1, h2, h3] <;> omega

theorem add3_carry (a b : Word) (c : Bool) : (add3 a b c).carry = decide (65536 ≤ a.toNat + b.toNat + c.toNat) := rfl

/-! ### Against exact arithmetic -/

/-- An output of the ALU is what exact arithmetic gives, with AZ and AN those of the value. -/
structure AluOut.Gives (o : AluOut) (e : Exact) : Prop where
  r : o.r = e.r
  az : o.az = (e.r == 0)
  an : o.an = e.r.getLsbD 15
  ovf : o.ovf = e.ovf
  carry : o.carry = e.carry

/-- The adder gives the exact sum. -/
theorem add3_gives_sum (a b : Word) (c : Bool) : (add3 a b c).Gives (exactSum a b c.toNat) := by
  refine ⟨add3_r a b c, ?_, ?_, add3_ovf a b c, add3_carry a b c⟩
  · rw [add3_zero, add3_r]; rfl
  · rw [add3_neg, add3_r]; rfl

/-- The adder with the complement of the subtrahend gives the exact difference. -/
theorem add3_gives_difference (a b : Word) (c : Bool) :
    (add3 a (~~~b) c).Gives (exactDifference a b (1 - c.toNat)) := by
  have hb := b.isLt
  have hc := bool_toNat_le c
  have hr : (add3 a (~~~b) c).r = a - b - BitVec.ofNat 16 (1 - c.toNat) := by
    apply BitVec.eq_of_toNat_eq
    rw [add3_toNat, word_not_toNat]
    simp only [BitVec.toNat_sub, BitVec.toNat_ofNat]
    omega
  refine ⟨hr, ?_, ?_, ?_, ?_⟩
  · rw [add3_zero, hr]; rfl
  · rw [add3_neg, hr]; rfl
  · rw [add3_ovf]
    have h : a.toInt + (~~~b).toInt + c.toNat = a.toInt - b.toInt - (1 - c.toNat : Nat) := by
      rw [word_toInt (~~~b), word_toInt b, word_not_toNat]
      split <;> split <;> omega
    rw [h]; rfl
  · rw [add3_carry, word_not_toNat]
    simp only [exactDifference, decide_eq_decide]
    omega

theorem logic_gives (r : Word) : (logic r).Gives (exactLogic r) := ⟨rfl, rfl, rfl, rfl, rfl⟩

/-- ABS gives the magnitude. -/
theorem absOut_gives (x : Word) : (absOut x).Gives (exactAbs x) := by
  have h := x.isLt
  have hs : x.getLsbD 15 = decide (x.toInt < 0) := by
    rw [sign_bit, word_toInt, decide_eq_decide]
    split <;> omega
  have hm : (x == 0x8000#16) = decide (x.toInt = -32768) := by
    rw [Bool.eq_iff_iff, beq_iff_eq, decide_eq_true_eq, ← BitVec.toInt_inj]
    rfl
  have hr : (absOut x).r = (exactAbs x).r := by
    simp only [absOut, exactAbs, hs, decide_eq_true_eq]
  refine ⟨hr, ?_, ?_, hm, rfl⟩
  · rw [← hr]; rfl
  · rw [show (absOut x).an = (x == 0x8000#16) from rfl, hm, ← hr]
    simp only [absOut, hs]
    rw [sign_bit, decide_eq_decide]
    by_cases hx : x.toInt < 0
    · rw [word_toInt] at *
      simp only [hx, decide_true, if_true, BitVec.toNat_sub]
      split at hx <;> simp <;> omega
    · rw [word_toInt] at *
      simp only [hx, decide_false, Bool.false_eq_true, if_false]
      split at hx <;> omega

/-- Every ALU function code gives what exact arithmetic gives (40_alu.md R222 to R254). -/
theorem aluEval_gives (fn : AluFn) (x y : Word) (c : Bool) : (aluEval fn x y c).Gives (exactAlu fn x y c.toNat) := by
  cases fn
  case passY => exact logic_gives y
  case incY => exact add3_gives_sum y 0 true
  case addC => exact add3_gives_sum x y c
  case add => exact add3_gives_sum x y false
  case notY => exact logic_gives _
  case negY => exact add3_gives_difference 0 y true
  case subBorrow => exact add3_gives_difference x y c
  case sub => exact add3_gives_difference x y true
  case decY =>
    have h : exactAlu .decY x y c.toNat = exactDifference y 0 1 := by simp [exactAlu, exactDifference]
    rw [h]
    exact add3_gives_difference y 0 false
  case rsub => exact add3_gives_difference y x true
  case rsubBorrow => exact add3_gives_difference y x c
  case notX => exact logic_gives _
  case and => exact logic_gives _
  case or => exact logic_gives _
  case xor => exact logic_gives _
  case abs => exact absOut_gives x

/-! ### Committed to a state -/

theorem alu_commit (s : State) (z : Dest) (fn : AluFn) (x y : Word) :
    s.alu z fn x y = s.commit (s.bank.setAlu z s.arSat (s.aluOut fn x y)) (s.aluAstat s.arSat fn x y) := rfl

theorem arValue_gives {o : AluOut} {e : Exact} (h : o.Gives e) (sat : Bool) :
    arValue sat o = saturated sat e.ovf e.carry e.r := by
  simp [arValue, saturated, satValue, h.r, h.ovf, h.carry]

/-- AR or AF after an ALU function is what exact arithmetic gives. -/
theorem setAlu_gives {o : AluOut} {e : Exact} (h : o.Gives e) (s : State) (z : Dest) :
    s.bank.setAlu z s.arSat o = aluBank s z e := by
  cases z
  · simp [Bank.setAlu, aluBank, arValue_gives h]
  · simp [Bank.setAlu, aluBank, h.r]

/-- AZ and AN agree with the value, or with the saturated value where the parameter says so. -/
theorem aluZN_gives {o : AluOut} {e : Exact} (h : o.Gives e) (f sat : Bool) :
    aluZN f sat o = (saturated (f && sat) e.ovf e.carry e.r == 0, (saturated (f && sat) e.ovf e.carry e.r).getLsbD 15) := by
  unfold aluZN saturated
  rw [h.ovf, h.carry, h.az, h.an]
  split
  · cases e.carry <;> rfl
  · rfl

/-- ASTAT after an ALU output: AZ, AN, AV, AC as exact arithmetic gives them, bits 4 to 7 as before. -/
theorem aluFlags_gives {o : AluOut} {e : Exact} (h : o.Gives e) (s t : State) (sat : Bool)
    (ht : t.st.astat = aluFlags s.cfg.aluSatFlags sat s.avLatch s.st.astat o) :
    AluFlags s t sat e ∧ SameAstatFrom s t 4 := by
  have hz := aluZN_gives h s.cfg.aluSatFlags sat
  refine ⟨⟨?_, ?_, ?_, ?_⟩, ?_⟩
  · simp only [astatAZ, ht, aluFlags, getLsbD_putBit, hz]; simp
  · simp only [astatAN, ht, aluFlags, getLsbD_putBit, hz]; simp
  · simp only [astatAV, ht, aluFlags, getLsbD_putBit, h.ovf]
    cases s.avLatch <;> simp [Bool.or_comm]
  · simp only [astatAC, ht, aluFlags, getLsbD_putBit, h.carry]; simp
  · intro k hk
    simp only [ht, aluFlags, getLsbD_putBit]
    simp [show k ≠ 0 by omega, show k ≠ 1 by omega, show k ≠ 2 by omega, show k ≠ 3 by omega]

theorem aluOut_gives (s : State) (fn : AluFn) (x y : Word) : (s.aluOut fn x y).Gives (exactAlu fn x y s.carryIn) :=
  aluEval_gives fn x y _

theorem aluAstat_eq (s : State) (sat : Bool) {fn : AluFn} (hf : fn ≠ .abs) (x y : Word) :
    s.aluAstat sat fn x y = aluFlags s.cfg.aluSatFlags sat s.avLatch s.st.astat (s.aluOut fn x y) := by
  unfold State.aluAstat
  cases fn <;> first | rfl | exact absurd rfl hf

/-- A state whose active bank and ASTAT are those of an ALU function other than ABS. -/
theorem aluDone_of (s t : State) (z : Dest) (fn : AluFn) (x y : Word) (hf : fn ≠ .abs)
    (hb : t.bank = (s.alu z fn x y).bank) (ha : t.st.astat = (s.alu z fn x y).st.astat) :
    AluDone s t z (exactAlu fn x y s.carryIn) := by
  have h := aluOut_gives s fn x y
  have hs : t.st.astat = aluFlags s.cfg.aluSatFlags s.arSat s.avLatch s.st.astat (s.aluOut fn x y) := by
    rw [ha, alu_commit, ← aluAstat_eq s s.arSat hf]; simp
  obtain ⟨h1, h2⟩ := aluFlags_gives h s t s.arSat hs
  refine ⟨?_, h1, h2⟩
  rw [hb, alu_commit, ← setAlu_gives h]; simp

/-- A state whose ASTAT is that of ABS: the four flags, AS, and the rest. -/
theorem absFlags_of (s t : State) (sat : Bool) (x y : Word) (ha : t.st.astat = s.aluAstat sat .abs x y) :
    AluFlags s t sat (exactAbs x) ∧ astatAS t.st.astat = x.getLsbD 15 ∧ SameAstatFrom s t 5 := by
  have h := aluOut_gives s .abs x y
  have hs := aluFlags_gives (e := exactAbs x) h s
    (s.setAstat (aluFlags s.cfg.aluSatFlags sat s.avLatch s.st.astat (s.aluOut .abs x y))) sat rfl
  have hk : ∀ k, t.st.astat.getLsbD k = if k = 4 then x.getLsbD 15 else
      (aluFlags s.cfg.aluSatFlags sat s.avLatch s.st.astat (s.aluOut .abs x y)).getLsbD k := by
    intro k
    rw [ha]
    simp only [State.aluAstat, getLsbD_putBit]
    simp
  obtain ⟨⟨h0, h1, h2, h3⟩, h4⟩ := hs
  refine ⟨⟨?_, ?_, ?_, ?_⟩, ?_, ?_⟩
  · simp only [astatAZ, hk]; exact h0
  · simp only [astatAN, hk]; exact h1
  · simp only [astatAV, hk]; exact h2
  · simp only [astatAC, hk]; exact h3
  · simp only [astatAS, hk]; rfl
  · intro k h5
    rw [hk, if_neg (by omega)]
    exact h4 k (by omega)

/-- A state whose active bank and ASTAT are those of ABS. -/
theorem absDone_of (s t : State) (z : Dest) (x y : Word)
    (hb : t.bank = (s.alu z .abs x y).bank) (ha : t.st.astat = (s.alu z .abs x y).st.astat) : AbsDone s t z x := by
  obtain ⟨h1, h2, h3⟩ := absFlags_of s t s.arSat x y (by rw [ha, alu_commit]; simp)
  refine ⟨?_, h1, h2, h3⟩
  rw [hb, alu_commit, show exactAbs x = exactAlu .abs x y s.carryIn from rfl, ← setAlu_gives (aluOut_gives s .abs x y)]
  simp

end Sys2Proof.Machine
end

