-- ==== Sys2Proof/Laws/Cycle.lean ====
section
/-!
SUPPORT. What the parts of the end of a cycle can change, once for each: a proof about a cycle cites these and does not unfold them.
-/

namespace Sys2Proof.Machine

/-- The timer of a cycle changes the timer and the interrupt requests, and of these no request of powerdown. -/
theorem timerStep_only (s t : State) : ∃ timer irq, s.timerStep t = { t with timer := timer, irq := irq } ∧
    irq.latchPwd = t.irq.latchPwd ∧ irq.pdSeq = t.irq.pdSeq ∧ irq.pdForced = t.irq.pdForced ∧ irq.pins = t.irq.pins ∧
    irq.pwdPin = t.irq.pwdPin := by
  unfold State.timerStep State.timerTick State.timerRequest
  dsimp only
  repeat' split
  all_goals exact ⟨_, _, rfl, rfl, rfl, rfl, rfl, rfl⟩

/-- A cycle's PDFORCE step changes the interrupt requests as `pdDue` says. -/
theorem pdStep_eq (s : State) : s.pdStep = { s with
    irq := { s.irq with latchPwd := s.irq.latchPwd || s.lat.pdDue, pdForced := s.irq.pdForced || s.lat.pdDue } } := by
  unfold State.pdStep
  cases s.lat.pdDue <;> simp

/-- The delayed pop and the PC stack restrictions change the sequencer and the note of what was used. -/
theorem pushThenReturn_only (s t : State) : ∃ seq use,
    s.pushThenReturn (s.delayedPop t) = { t with seq := seq, lat := { t.lat with use := use } } := by
  unfold State.pushThenReturn State.delayedPop
  simp only [State.anyPcStk, State.anyPc, State.anySstat, State.anyLoopStk, State.popPc, State.setPc, State.setPcStk,
    State.setLoopStk]
  repeat' split
  all_goals exact ⟨_, _, rfl⟩

/-- The byte accesses of a cycle change the cycles left and the grant. -/
theorem bdmaTick_only (s : State) (n : Nat) : ∃ wait bg,
    s.bdmaTick n = { s with bdma := { s.bdma with wait := wait }, bg := bg } := by
  unfold State.bdmaTick
  dsimp only
  split
  all_goals exact ⟨_, _, rfl⟩

/-- A byte access that is finished leaves none in progress. -/
theorem byteLeft_done (s : State) (n : Nat) (h : s.bdma.wait ≤ n) : s.byteLeft n = 0 := by
  simp [State.byteLeft, Nat.sub_eq_zero_of_le h]

/-- A granted bus is taken, and a bus that nobody has asked for is free. -/
@[simp] theorem busTaken_of_bg (s : State) (h : s.bg = true) : s.busTaken = true := by simp [State.busTaken, h]
@[simp] theorem busTaken_of_idle (s : State) (h : s.bg = false) (k : s.br = false) : s.busTaken = false := by
  simp [State.busTaken, h, k]

/-- All an interrupt entry's cycle adds to the entry itself: the word fetched, a step and its cycles. -/
theorem enterInterrupt_eq (s : State) (x : Source) : s.enterInterrupt x =
    { s.takeInterrupt x with
      seq := { (s.takeInterrupt x).seq with prefetch := (s.enterInterrupt x).seq.prefetch }
      freeCtr := (s.takeInterrupt x).freeCtr + 1
      clock := (s.enterInterrupt x).clock } := by
  unfold State.enterInterrupt
  dsimp only
  split <;> rfl

end Sys2Proof.Machine
end

