-- ==== Sys2Proof/Laws/Dag.lean ====
section
/-!
SUPPORT. The data address generators: the buffer a length stands for, the modulus logic, and bit reversal.
-/

namespace Sys2Proof.Machine

/-! ### The buffer of a length (20_memory.md R121) -/

theorem bufBitsFrom_eq (l n k : Nat) (hk : k ≤ 14) (hn : n ≤ 14) (hlo : 14 - k ≤ n) (h1 : l ≤ 2 ^ n) (h2 : 2 ^ n < 2 * l) :
    bufBitsFrom l k = n := by
  induction k with
  | zero => simp [bufBitsFrom]; omega
  | succ k ih =>
    unfold bufBitsFrom
    by_cases h : l ≤ 2 ^ (13 - k)
    · rw [if_pos h]
      have : ¬ n > 13 - k := fun hgt => by
        have : 2 * 2 ^ (13 - k) ≤ 2 ^ n := by
          rw [← pow_succ']
          exact Nat.pow_le_pow_right (by norm_num) (by omega)
        omega
      omega
    · rw [if_neg h]
      refine ih (by omega) ?_
      rcases Nat.lt_or_ge n (14 - k) with hlt | hge
      · exact absurd (h1.trans (Nat.pow_le_pow_right (by norm_num) (by omega))) h
      · exact hge

/-- The number of low bits of a buffer's base is the n with 2^(n-1) < L ≤ 2^n. -/
theorem bufBits_eq (l : Addr) (n : Nat) (h1 : l.toNat ≤ 2 ^ n) (h2 : 2 ^ n < 2 * l.toNat) : bufBits l = n := by
  have hl := l.isLt
  refine bufBitsFrom_eq l.toNat n 14 (le_refl _) ?_ (by omega) h1 h2
  by_contra h
  have : 2 ^ 15 ≤ 2 ^ n := Nat.pow_le_pow_right (by norm_num) (by omega)
  omega

/-- Inside its stated conditions the modulus logic goes round the buffer (20_memory.md R121). -/
theorem nextAddr_round (free i m l : Addr) (n : Nat) (h1 : l.toNat ≤ 2 ^ n) (h2 : 2 ^ n < 2 * l.toNat)
    (hm : m.toInt < l.toNat) (hm' : -(l.toNat : Int) < m.toInt)
    (hi : i.toNat < i.toNat / 2 ^ n * 2 ^ n + l.toNat) :
    ((nextAddr free i m l).toNat : Int) =
      (i.toNat / 2 ^ n * 2 ^ n : Nat) + (i.toNat - (i.toNat / 2 ^ n * 2 ^ n : Nat) + m.toInt) % l.toNat := by
  have hl : l ≠ 0 := by
    rintro rfl
    simp at h2
  have hb : bufBase i l = i.toNat / 2 ^ n * 2 ^ n := by rw [bufBase, bufBits_eq l n h1 h2]
  have hok : modulusOk i m l = true := by
    simp only [modulusOk, hb, Bool.and_eq_true, decide_eq_true_eq]
    omega
  have hle : i.toNat / 2 ^ n * 2 ^ n ≤ i.toNat := Nat.div_mul_le_self _ _
  have hi14 := i.isLt
  have hl14 := l.isLt
  have hn : n ≤ 14 := by
    by_contra h
    have : 2 ^ 15 ≤ 2 ^ n := Nat.pow_le_pow_right (by norm_num) (by omega)
    omega
  have hroom : i.toNat / 2 ^ n * 2 ^ n + l.toNat ≤ 16384 := by
    have h14 : (16384 : Nat) = 2 ^ (14 - n) * 2 ^ n := by rw [← pow_add]; simp [Nat.sub_add_cancel hn]
    have hq : i.toNat / 2 ^ n < 2 ^ (14 - n) := by
      rw [Nat.div_lt_iff_lt_mul (by positivity)]
      omega
    calc i.toNat / 2 ^ n * 2 ^ n + l.toNat ≤ i.toNat / 2 ^ n * 2 ^ n + 2 ^ n := by omega
      _ = (i.toNat / 2 ^ n + 1) * 2 ^ n := by ring
      _ ≤ 2 ^ (14 - n) * 2 ^ n := Nat.mul_le_mul_right _ (by omega)
      _ = 16384 := h14.symm
  unfold nextAddr
  rw [if_neg hl, if_pos hok, hb]
  generalize i.toNat / 2 ^ n * 2 ^ n = base at *
  generalize i.toNat = a at *
  generalize l.toNat = len at *
  generalize m.toInt = d at *
  have hv : ∀ v : Int, 0 ≤ v → v < 16384 → ((BitVec.ofInt 14 v).toNat : Int) = v := by
    intro v h0 h1
    rw [BitVec.toNat_ofInt]
    norm_num
    omega
  simp only
  split
  · rw [hv _ (by omega) (by omega)]
    have : ((a : Int) - base + d) % len = a - base + d - len := by
      rw [← Int.sub_emod_right, Int.emod_eq_of_lt (by omega) (by omega)]
    omega
  · split
    · rw [hv _ (by omega) (by omega)]
      have : ((a : Int) - base + d) % len = a - base + d + len := by
        rw [← Int.add_emod_right, Int.emod_eq_of_lt (by omega) (by omega)]
      omega
    · rw [hv _ (by omega) (by omega)]
      have : ((a : Int) - base + d) % len = a - base + d := Int.emod_eq_of_lt (by omega) (by omega)
      omega

/-! ### Bit reversal (20_memory.md R122) -/

/-- Every bit of a reversed address. -/
theorem bitrev14_bit (a : Addr) (k : Nat) (h : k < 14) : (bitrev14 a).getLsbD k = a.getLsbD (13 - k) := by
  have hx (j : Nat) : (if a.getLsbD j then 2 ^ (13 - j) else 0) = (a.getLsbD j).toNat * 2 ^ (13 - j) := by
    cases a.getLsbD j <;> simp
  have hb (j : Nat) : (a.getLsbD j).toNat ≤ 1 := by cases a.getLsbD j <;> simp
  have hd (j : Nat) : decide ((a.getLsbD j).toNat = 1) = a.getLsbD j := by cases a.getLsbD j <;> simp
  unfold bitrev14
  simp only [hx]
  rw [← hd (13 - k), BitVec.getLsbD, BitVec.toNat_ofNat, Nat.testBit_eq_decide_div_mod_eq, decide_eq_decide]
  have h0 := hb 0; have h1 := hb 1; have h2 := hb 2; have h3 := hb 3; have h4 := hb 4; have h5 := hb 5; have h6 := hb 6
  have h7 := hb 7; have h8 := hb 8; have h9 := hb 9; have h10 := hb 10; have h11 := hb 11; have h12 := hb 12
  have h13 := hb 13
  interval_cases k <;> simp only [Nat.reducePow, Nat.reduceSub] <;> omega

end Sys2Proof.Machine
end

