-- ==== Sys2Proof/Laws/Mac.lean ====
section
/-!
SUPPORT. The MAC computes what exact arithmetic gives: the product, the accumulation, rounding, MV, and a MAC function committed
to a state.
-/

namespace Sys2Proof.Machine

/-! ### The product -/

theorem signed_bounds (a : Word) : -32768 ≤ a.toInt ∧ a.toInt ≤ 32767 := by
  have := a.isLt
  rw [BitVec.toInt_eq_toNat_cond]
  split <;> omega

theorem unsigned_bounds (a : Word) : 0 ≤ (a.toNat : Int) ∧ (a.toNat : Int) ≤ 65535 := by
  have := a.isLt
  omega

/-- A product with a signed factor fits in 32 bits. -/
theorem product_fits (a b : Int) (ha : -32768 ≤ a) (ha' : a ≤ 32767) (hb : -32768 ≤ b) (hb' : b ≤ 65535) :
    (BitVec.ofInt 32 (a * b)).toInt = a * b := by
  have h1 : -2147483648 ≤ a * b := by nlinarith
  have h2 : a * b ≤ 2147483647 := by nlinarith
  rw [BitVec.toInt_ofInt]
  exact Int.bmod_eq_of_le (by norm_num; omega) (by norm_num; omega)

/-- The product of a function with a signed operand is exact, whatever the parameter. -/
theorem macProduct_signed (e : Bool) (fn : MacFn) (x y : Word) (h : macSignedX fn = true ∨ macSignedY fn = true) :
    macProduct e fn x y = operand (macSignedX fn) x * operand (macSignedY fn) y := by
  have hx := signed_bounds x
  have hy := signed_bounds y
  have ux := unsigned_bounds x
  have uy := unsigned_bounds y
  unfold macProduct
  cases e
  · rfl
  · simp only [if_true]
    cases hX : macSignedX fn <;> cases hY : macSignedY fn
    · simp [hX, hY] at h
    · simp only [operand, Bool.false_eq_true, if_false, if_true]
      rw [mul_comm]
      exact product_fits _ _ hy.1 hy.2 (by omega) (by omega)
    · simp only [operand, Bool.false_eq_true, if_false, if_true]
      exact product_fits _ _ hx.1 hx.2 (by omega) (by omega)
    · simp only [operand, if_true]
      exact product_fits _ _ hx.1 hx.2 (by omega) (by omega)

/-- The product of two unsigned operands is what the parameter makes it. -/
theorem macProduct_unsigned (s : State) (fn : MacFn) (x y : Word) (hx : macSignedX fn = false)
    (hy : macSignedY fn = false) : macProduct s.cfg.macUUSignExt fn x y = s.unsignedProduct x y := by
  unfold macProduct State.unsignedProduct operand
  rw [hx, hy]
  have e : ((x.toNat : Int) * y.toNat) = (x.toNat * y.toNat : Nat) := by push_cast; rfl
  simp only [Bool.false_eq_true, if_false, e, BitVec.ofInt_natCast]

/-! ### MV and rounding -/

/-- MV says that the result needs more than 32 bits (41_mac.md R289). -/
theorem mvOf_eq (r : BitVec 40) : mvOf r = decide (r.toInt < -2147483648 ∨ 2147483647 < r.toInt) := by
  have h := r.isLt
  unfold mvOf
  rw [BitVec.toInt_eq_toNat_cond, Bool.eq_iff_iff]
  simp only [Bool.not_eq_true', Bool.or_eq_false_iff, beq_eq_false_iff_ne, decide_eq_true_eq]
  norm_num at h ⊢
  split <;> omega

/-- The rounded value: low half as the sum with one half, upper part a nearest multiple of 65536, a tie by the mode. -/
theorem macRound_spec (b : Bool) (t : Int) :
    (macRound b t - (t + 32768)) % 65536 = 0 ∧ (macRound b t / 65536 * 65536 - t).natAbs ≤ 32768 ∧
      (t % 65536 = 32768 → if b then macRound b t = t + 32768 else macRound b t / 65536 % 2 = 0) := by
  unfold macRound
  cases b
  · simp only [Bool.not_false, Bool.true_and, Bool.and_eq_true, decide_eq_true_eq, Bool.false_eq_true, if_false]
    split <;> omega
  · simp only [Bool.not_true, Bool.false_and, Bool.false_eq_true, if_false, if_true]
    exact ⟨by omega, by omega, fun _ => trivial⟩

/-! ### The 40-bit result -/

/-- The multiple of the product an accumulate mode takes, 0 standing for the product alone. -/
def macAcc (fn : MacFn) : Int := if (macMode fn).1 = 0 then 0 else (macMode fn).2

theorem macSum_eq (s : State) (fn : MacFn) (p : Int) :
    (macMode fn).1 * s.bank.mr.toInt + (macMode fn).2 * macAddend s.mMode p = s.accumulated (macAcc fn) p := by
  cases fn <;> simp [macMode, macAcc, State.accumulated, State.aligned, macAddend]

theorem macOut_exact (s : State) (fn : MacFn) (x y : Word) (h : macRounds fn = false) :
    s.macOut fn x y = BitVec.ofInt 40 (s.accumulated (macAcc fn) (macProduct s.cfg.macUUSignExt fn x y)) := by
  unfold State.macOut
  simp only [h, macSum_eq, Bool.false_eq_true, if_false]

theorem macOut_rounded (s : State) (fn : MacFn) (x y : Word) (h : macRounds fn = true) :
    s.macOut fn x y = BitVec.ofInt 40
      (macRound s.biasRnd (s.accumulated (macAcc fn) (macProduct s.cfg.macUUSignExt fn x y))) := by
  unfold State.macOut
  simp only [h, macSum_eq, if_true]

/-! ### Committed to a state -/

theorem mac_commit (s : State) (z : Dest) (fn : MacFn) (x y : Word) :
    s.mac z fn x y = s.commit (s.bank.setMac z (s.macOut fn x y)) (putBit s.st.astat 6 (mvOf (s.macOut fn x y))) := rfl

/-- A state whose active bank and ASTAT are those of a MAC function. -/
theorem macDone_of (s t : State) (z : Dest) (fn : MacFn) (x y : Word)
    (hb : t.bank = (s.mac z fn x y).bank) (ha : t.st.astat = (s.mac z fn x y).st.astat) :
    MacDone s t z (s.macOut fn x y) := by
  refine ⟨?_, ?_, ?_⟩
  · rw [hb, mac_commit]
    cases z <;> simp [Bank.setMac, macBank]
  · rw [ha, mac_commit, ← mvOf_eq]
    simp only [commit_st, astatMV, getLsbD_putBit]
    rfl
  · intro k hk
    rw [ha, mac_commit]
    simp only [commit_st, getLsbD_putBit]
    simp [hk]

theorem macExact_of (s t : State) (z : Dest) (fn : MacFn) (x y : Word) (h : macRounds fn = false)
    (hb : t.bank = (s.mac z fn x y).bank) (ha : t.st.astat = (s.mac z fn x y).st.astat) :
    MacExact s t z (macAcc fn) (macProduct s.cfg.macUUSignExt fn x y) := by
  have k := macDone_of s t z fn x y hb ha
  rwa [macOut_exact s fn x y h] at k

theorem macRounded_of (s t : State) (z : Dest) (fn : MacFn) (x y : Word) (h : macRounds fn = true)
    (hb : t.bank = (s.mac z fn x y).bank) (ha : t.st.astat = (s.mac z fn x y).st.astat) :
    MacRounded s t z (macAcc fn) (macProduct s.cfg.macUUSignExt fn x y) := by
  have k := macDone_of s t z fn x y hb ha
  rw [macOut_rounded s fn x y h] at k
  exact ⟨_, k, macRound_spec _ _⟩

/-- Every MAC function code is what exact arithmetic gives (41_mac.md R282 to R290). -/
theorem macFnDone_of (s t : State) (z : Dest) (fn : MacFn) (x y : Word)
    (hb : t.bank = (s.mac z fn x y).bank) (ha : t.st.astat = (s.mac z fn x y).st.astat) : MacFnDone s t z fn x y := by
  have he := macExact_of s t z fn x y
  have hr := macRounded_of s t z fn x y
  have hs := macProduct_signed s.cfg.macUUSignExt fn x y
  have hu := macProduct_unsigned s fn x y
  cases fn <;> first
    | (rw [hu rfl rfl] at he; exact he rfl hb ha)
    | (rw [hs (.inl rfl)] at he; exact he rfl hb ha)
    | (rw [hs (.inr rfl)] at he; exact he rfl hb ha)
    | (rw [hs (.inl rfl)] at hr; exact hr rfl hb ha)

end Sys2Proof.Machine
end

