-- ==== Sys2Proof/Laws/Memory.lean ====
section
/-!
SUPPORT. The laws of the memory list: a read after a write, and the canonical form, which every operation keeps.
-/

namespace Sys2Proof.Machine

/-! ### The canonical form by recursion -/

/-- Every address of the list is above `a`. -/
def aboveAll (a : Nat) (m : Memory) : Prop := ∀ p ∈ m, a < p.1

theorem wf_cons_iff (k : Nat) (v : Byte) (m : Memory) :
    Memory.wf ((k, v) :: m) = true ↔ v ≠ 0 ∧ aboveAll k m ∧ Memory.wf m = true := by
  induction m generalizing k v with
  | nil => simp [Memory.wf, aboveAll]
  | cons p rest ih =>
    obtain ⟨k', v'⟩ := p
    simp only [Memory.wf, Bool.and_eq_true, bne_iff_ne, ne_eq, decide_eq_true_eq, and_assoc]
    constructor
    · rintro ⟨hv, hk, hr⟩
      refine ⟨hv, ?_, hr⟩
      have h' := ((ih k' v').mp hr).2.1
      intro p hp
      rcases List.mem_cons.mp hp with rfl | hp
      · exact hk
      · exact Nat.lt_trans hk (h' p hp)
    · rintro ⟨hv, ha, hr⟩
      exact ⟨hv, ha _ (List.mem_cons_self ..), hr⟩

/-! ### Reading -/

@[simp] theorem memGet_nil (a : Nat) : memGet [] a = 0 := rfl

theorem memGet_of_above {a b : Nat} {m : Memory} (h : aboveAll a m) (hb : b ≤ a) : memGet m b = 0 := by
  induction m with
  | nil => rfl
  | cons p rest ih =>
    obtain ⟨k, v⟩ := p
    have hk : a < k := h (k, v) (List.mem_cons_self ..)
    have : k ≠ b := by omega
    simp only [memGet, this, if_false]
    exact ih (fun q hq => h q (List.mem_cons_of_mem _ hq))

/-- A byte written is read back. -/
@[simp] theorem memGet_memSet_self {m : Memory} (h : Memory.wf m = true) (a : Nat) (v : Byte) :
    memGet (memSet m a v) a = v := by
  induction m with
  | nil => unfold memSet; split <;> simp_all [memGet]
  | cons p rest ih =>
    obtain ⟨k, w⟩ := p
    have ⟨_, ha, hr⟩ := (wf_cons_iff k w rest).mp h
    unfold memSet
    split
    · split
      · next hlt hv =>
        have : k ≠ a := by omega
        simp only [memGet, this, if_false, hv]
        exact memGet_of_above ha (by omega)
      · simp [memGet]
    · split
      · split
        · next heq hv => rw [hv]; exact memGet_of_above ha (by omega)
        · simp [memGet]
      · next hne =>
        have : k ≠ a := fun h => hne h.symm
        simp only [memGet, this, if_false]
        exact ih hr

/-- A write leaves every other byte alone. -/
@[simp] theorem memGet_memSet_other (m : Memory) {a b : Nat} (v : Byte) (hab : a ≠ b) :
    memGet (memSet m a v) b = memGet m b := by
  induction m with
  | nil => unfold memSet; split <;> simp [memGet, hab]
  | cons p rest ih =>
    obtain ⟨k, w⟩ := p
    unfold memSet
    split
    · split <;> simp [memGet, hab]
    · split
      · next heq =>
        subst heq
        split <;> simp [memGet, hab]
      · simp only [memGet, ih]

/-! ### The canonical form is kept -/

theorem aboveAll_memSet {m : Memory} {k a : Nat} (h : aboveAll k m) (hk : k < a) (v : Byte) :
    aboveAll k (memSet m a v) := by
  induction m with
  | nil =>
    unfold memSet
    split
    · exact fun _ hp => absurd hp (List.not_mem_nil)
    · intro p hp
      rcases List.mem_cons.mp hp with rfl | hp
      · exact hk
      · exact absurd hp (List.not_mem_nil)
  | cons q rest ih =>
    obtain ⟨k', w⟩ := q
    have hq := h (k', w) (List.mem_cons_self ..)
    have hrest : aboveAll k rest := fun p hp => h p (List.mem_cons_of_mem _ hp)
    unfold memSet
    split
    · split
      · exact h
      · intro p hp
        rcases List.mem_cons.mp hp with rfl | hp
        · exact hk
        · exact h p hp
    · split
      · split
        · exact hrest
        · intro p hp
          rcases List.mem_cons.mp hp with rfl | hp
          · exact hk
          · exact hrest p hp
      · intro p hp
        rcases List.mem_cons.mp hp with rfl | hp
        · exact hq
        · exact ih hrest p hp

/-- A write of one byte keeps the canonical form. -/
theorem wf_memSet {m : Memory} (h : Memory.wf m = true) (a : Nat) (v : Byte) : Memory.wf (memSet m a v) = true := by
  induction m with
  | nil => unfold memSet; split <;> simp_all [Memory.wf]
  | cons p rest ih =>
    obtain ⟨k, w⟩ := p
    have ⟨hw, ha, hr⟩ := (wf_cons_iff k w rest).mp h
    unfold memSet
    split
    · split
      · exact h
      · next hlt hv =>
        refine (wf_cons_iff ..).mpr ⟨hv, ?_, h⟩
        intro p hp
        rcases List.mem_cons.mp hp with rfl | hp
        · exact hlt
        · exact Nat.lt_trans hlt (ha p hp)
    · split
      · next heq =>
        split
        · exact hr
        · next hv => exact (wf_cons_iff ..).mpr ⟨hv, heq ▸ ha, hr⟩
      · exact (wf_cons_iff ..).mpr ⟨hw, aboveAll_memSet ha (by omega) v, ih hr⟩

/-- A write of a 16-bit word keeps the canonical form. -/
theorem wf_memSet16 {m : Memory} (h : Memory.wf m = true) (a : Nat) (w : Word) : Memory.wf (memSet16 m a w) = true :=
  wf_memSet (wf_memSet h _ _) _ _

/-- A write of a 24-bit word keeps the canonical form. -/
theorem wf_memSet24 {m : Memory} (h : Memory.wf m = true) (a : Nat) (w : PmWord) : Memory.wf (memSet24 m a w) = true :=
  wf_memSet (wf_memSet16 h _ _) _ _

/-! ### Words -/

/-- A 16-bit write leaves every byte outside its two alone. -/
theorem memGet_memSet16_other (m : Memory) {a b : Nat} (w : Word) (h : b < a ∨ a + 1 < b) :
    memGet (memSet16 m a w) b = memGet m b := by
  rw [memSet16, memGet_memSet_other _ _ (by omega), memGet_memSet_other _ _ (by omega)]

/-- A 24-bit write leaves every byte outside its three alone. -/
theorem memGet_memSet24_other (m : Memory) {a b : Nat} (w : PmWord) (h : b < a ∨ a + 2 < b) :
    memGet (memSet24 m a w) b = memGet m b := by
  rw [memSet24, memGet_memSet_other _ _ (by omega), memGet_memSet16_other _ _ (by omega)]

theorem append_bytes (w : Word) : w.extractLsb' 8 8 ++ w.extractLsb' 0 8 = w := by
  ext i hi
  simp only [BitVec.getElem_append, BitVec.getElem_extractLsb']
  split
  · simp [BitVec.getLsbD_eq_getElem hi]
  · next h => rw [show 8 + (i - 8) = i by omega, BitVec.getLsbD_eq_getElem hi]

/-- A 16-bit word written is read back. -/
theorem memGet16_memSet16 {m : Memory} (h : Memory.wf m = true) (a : Nat) (w : Word) :
    memGet16 (memSet16 m a w) a = w := by
  have h1 := wf_memSet h a (w.extractLsb' 8 8)
  rw [memGet16, memSet16, memGet_memSet_self h1, memGet_memSet_other _ _ (by omega), memGet_memSet_self h, append_bytes]

theorem append_bytes24 (w : PmWord) :
    (w.extractLsb' 8 16).extractLsb' 8 8 ++ (w.extractLsb' 8 16).extractLsb' 0 8 ++ w.extractLsb' 0 8 = w := by
  rw [append_bytes]
  ext i hi
  simp only [BitVec.getElem_append, BitVec.getElem_extractLsb']
  split
  · simp [BitVec.getLsbD_eq_getElem hi]
  · next h => rw [show 8 + (i - 8) = i by omega, BitVec.getLsbD_eq_getElem hi]

/-- A 24-bit word written is read back. -/
theorem memGet24_memSet24 {m : Memory} (h : Memory.wf m = true) (a : Nat) (w : PmWord) :
    memGet24 (memSet24 m a w) a = w := by
  have h1 := wf_memSet h a ((w.extractLsb' 8 16).extractLsb' 8 8)
  have h2 := wf_memSet16 h a (w.extractLsb' 8 16)
  rw [memGet24, memSet24, memGet_memSet_self h2, memGet_memSet_other _ _ (by omega),
    memGet_memSet_other _ _ (by omega), memSet16, memGet_memSet_self h1, memGet_memSet_other _ _ (by omega),
    memGet_memSet_self h, append_bytes24]

end Sys2Proof.Machine
end

