-- ==== Sys2Proof/Laws/PerInstr.lean ====
section
/-!
SUPPORT. Per instruction: the word of a well-formed instruction decodes to it. One lemma for each constructor of
    `Instr`.
-/

namespace Sys2Proof

/-! ### Field codes -/

theorem Dest.code_lt (z : Dest) : z.code < 2 := by cases z <;> decide
theorem Dest.ofCode_code (z : Dest) : Dest.ofCode z.code = z := by cases z <;> rfl
theorem Xop.code_lt (x : Xop) : x.code < 8 := by cases x <;> decide
theorem Xop.ofCode_code (x : Xop) : Xop.ofCode x.code = x := by cases x <;> rfl
theorem ShXop.code_lt (x : ShXop) : x.code < 8 := by cases x <;> decide
theorem ShXop.ofCode_code (x : ShXop) : ShXop.ofCode x.code = some x := by cases x <;> rfl
theorem Yop.code_lt (y : Yop) : y.code < 4 := by cases y <;> decide
theorem Yop.ofCode_code (y : Yop) : Yop.ofCode y.code = y := by cases y <;> rfl
theorem YReg.code_lt (y : YReg) : y.code < 3 := by cases y <;> decide
theorem YReg.ofCode_code (y : YReg) : YReg.ofCode y.code = some y := by cases y <;> rfl
theorem YReg.ofCode_three : YReg.ofCode 3 = none := rfl
theorem DivY.code_lt (y : DivY) : y.code < 3 := by cases y <;> decide
theorem DivY.ofCode_code (y : DivY) : DivY.ofCode y.code = some y := by cases y <;> rfl
theorem Cond.code_lt (c : Cond) : c.code < 16 := by cases c <;> decide
theorem Cond.ofCode_code (c : Cond) : Cond.ofCode c.code = c := by cases c <;> rfl
theorem Term.code_lt (t : Term) : t.code < 16 := by cases t <;> decide
theorem Term.ofCode_code (t : Term) : Term.ofCode t.code = t := by cases t <;> rfl
theorem AluFn.code_lt (f : AluFn) : f.code < 16 := by cases f <;> decide
theorem AluFn.ofCode_code (f : AluFn) : AluFn.ofCode f.code = f := by cases f <;> rfl
theorem MacFn.code_lt (f : MacFn) : f.code < 16 := by cases f <;> decide
theorem MacFn.code_pos (f : MacFn) : 0 < f.code := by cases f <;> decide
theorem MacFn.ofCode_code (f : MacFn) : MacFn.ofCode f.code = some f := by cases f <;> rfl
theorem MacFn.ofCode_zero : MacFn.ofCode 0 = none := rfl
theorem ShiftFn.code_lt (f : ShiftFn) : f.code < 16 := by cases f <;> decide
theorem ShiftFn.ofCode_code (f : ShiftFn) : ShiftFn.ofCode f.code = f := by cases f <;> rfl
theorem Dreg.code_lt (d : Dreg) : d.code < 16 := by cases d <;> decide
theorem Dreg.ofCode_code (d : Dreg) : Dreg.ofCode d.code = d := by cases d <;> rfl
theorem DmDst.code_lt (d : DmDst) : d.code < 4 := by cases d <;> decide
theorem DmDst.ofCode_code (d : DmDst) : DmDst.ofCode d.code = d := by cases d <;> rfl
theorem PmDst.code_lt (d : PmDst) : d.code < 4 := by cases d <;> decide
theorem PmDst.ofCode_code (d : PmDst) : PmDst.ofCode d.code = d := by cases d <;> rfl
theorem ModeOp.code_lt (m : ModeOp) : m.code < 4 := by cases m <;> decide
theorem ModeOp.ofCode_code (m : ModeOp) : ModeOp.ofCode m.code = m := by cases m <;> rfl
theorem FlagOp.code_lt (f : FlagOp) : f.code < 4 := by cases f <;> decide
theorem FlagOp.ofCode_code (f : FlagOp) : FlagOp.ofCode f.code = f := by cases f <;> rfl
theorem StsOp.code_lt (s : StsOp) : s.code < 4 := by cases s <;> decide
theorem StsOp.ofCode_code (s : StsOp) : StsOp.ofCode s.code = s := by cases s <;> rfl
theorem SlowDiv.code_lt (n : SlowDiv) : n.code < 9 := by cases n <;> decide
theorem SlowDiv.code_pos (n : SlowDiv) : 0 < n.code := by cases n <;> decide
theorem SlowDiv.ofCode_code (n : SlowDiv) : SlowDiv.ofCode n.code = some n := by cases n <;> rfl
theorem boolCode_lt (b : Bool) : boolCode b < 2 := by cases b <;> decide
theorem boolCode_beq (b : Bool) : (boolCode b == 1) = b := by cases b <;> rfl
theorem ofNat_toNat_self {n : Nat} (v : BitVec n) : BitVec.ofNat n v.toNat = v := by simp

theorem Reg.group_lt (r : Reg) : r.group < 4 := by
  cases r <;> simp only [Reg.group] <;> (try split) <;> omega

theorem Reg.code_lt (r : Reg) : r.code < 16 := by
  cases r with
  | d r => exact Dreg.code_lt r
  | i n => simp only [Reg.code]; omega
  | m n => simp only [Reg.code]; omega
  | l n => simp only [Reg.code]; omega
  | _ => decide

/-- A register of group 3 never has code 15, the code of TOPPCSTACK. -/
theorem Reg.not_top (r : Reg) : ¬(r.group = 3 ∧ r.code = 15) := by
  cases r with
  | d r => simp [Reg.group]
  | i n => simp only [Reg.group]; split <;> simp
  | m n => simp only [Reg.group]; split <;> simp
  | l n => simp only [Reg.group]; split <;> simp
  | _ => decide

theorem Reg.ofCode_code (r : Reg) : Reg.ofCode r.group r.code = some r := by
  cases r with
  | d r => simp [Reg.group, Reg.code, Reg.ofCode, Dreg.ofCode_code]
  | i n => revert n; decide
  | m n => revert n; decide
  | l n => revert n; decide
  | _ => rfl

theorem Comp.code_lt (c : Comp) : c.code < 1024 := by
  cases c with
  | alu f y x => have := f.code_lt; have := y.code_lt; have := x.code_lt; simp only [Comp.code]; omega
  | mac f y x => have := f.code_lt; have := y.code_lt; have := x.code_lt; simp only [Comp.code]; omega

theorem Comp.ofCode_zero : Comp.ofCode 0 = none := rfl

theorem Comp.ofCode_code (c : Comp) : Comp.ofCode c.code = some c := by
  cases c with
  | alu f y x =>
    have := f.code_lt; have := y.code_lt; have := x.code_lt
    have h1 : ((16 + f.code) * 32 + y.code * 8 + x.code) / 32 = 16 + f.code := by omega
    have h2 : ((16 + f.code) * 32 + y.code * 8 + x.code) / 8 % 4 = y.code := by omega
    have h3 : ((16 + f.code) * 32 + y.code * 8 + x.code) % 8 = x.code := by omega
    simp [Comp.code, Comp.ofCode, h1, h2, h3, AluFn.ofCode_code, Yop.ofCode_code, Xop.ofCode_code]
  | mac f y x =>
    have hf := f.code_lt; have := y.code_lt; have := x.code_lt
    have h1 : (f.code * 32 + y.code * 8 + x.code) / 32 = f.code := by omega
    have h2 : (f.code * 32 + y.code * 8 + x.code) / 8 % 4 = y.code := by omega
    have h3 : (f.code * 32 + y.code * 8 + x.code) % 8 = x.code := by omega
    simp [Comp.code, Comp.ofCode, h1, h2, h3, MacFn.ofCode_code, Yop.ofCode_code, Xop.ofCode_code, Nat.not_le.mpr hf]

/-- Bits 7:4 of a word with a constant: CC, BO's upper bit, and 1. -/
def Const.low (k : Const) : Nat := k.n.val % 4 * 4 + boolCode k.compl * 2 + 1

theorem Const.low_fields (k : Const) : k.n.val / 4 < 4 ∧ k.low < 16 ∧ k.low / 4 = k.n.val % 4 ∧
    k.low / 2 % 2 = boolCode k.compl ∧ k.low % 2 = 1 := by
  have h1 := k.n.isLt
  have h2 := boolCode_lt k.compl
  unfold Const.low
  omega

theorem Const.low_ne (k : Const) : k.low ≠ 0 := by unfold Const.low; omega

theorem Const.ofBits_eq {w : Nat} (k : Const) (h1 : w / 2048 % 4 = k.n.val / 4) (h2 : w / 64 % 4 = k.n.val % 4)
    (h3 : w / 32 % 2 = boolCode k.compl) : Const.ofBits w = k := by
  obtain ⟨n, c⟩ := k
  simp only [Const.ofBits, h1, h2, h3, boolCode_beq, Const.mk.injEq, and_true]
  have := n.isLt
  apply Fin.ext
  simp only [Fin.ofNat]
  omega

/-! ### Which type a word is (30_encoding.md R161)

The tests of `decodeNat` are taken one by one: a test that the bounds of the word contradict is closed by arithmetic. -/

theorem decodeNat_type1 (w : Nat) (h : 12582912 ≤ w) : decodeNat w = decodeType1 w := if_pos h
theorem decodeNat_storeDmImm (w : Nat) (h : 10485760 ≤ w) (h' : w < 12582912) : decodeNat w =
    .instr (.storeDmImm (w / 1048576 % 2 == 1) (BitVec.ofNat 16 (w / 16 % 65536)) (BitVec.ofNat 2 (w / 4 % 4))
      (BitVec.ofNat 2 (w % 4))) := by
  unfold decodeNat
  repeat rw [if_neg (by omega)]
  exact if_pos h
theorem decodeNat_loadDregImm (w : Nat) (h : 4194304 ≤ w) (h' : w < 5242880) : decodeNat w =
    .instr (.loadDregImm (BitVec.ofNat 16 (w / 16 % 65536)) (Dreg.ofCode (w % 16))) := by
  unfold decodeNat
  repeat rw [if_neg (by omega)]
  exact if_pos h
theorem decodeNat_doUntil (w : Nat) (h : 1310720 ≤ w) (h' : w < 1572864) : decodeNat w =
    .instr (.doUntil (BitVec.ofNat 14 (w / 16 % 16384)) (Term.ofCode (w % 16))) := by
  unfold decodeNat
  repeat rw [if_neg (by omega)]
  exact if_pos h
theorem decodeNat_type3 (w : Nat) (h : 8388608 ≤ w) (h' : w < 10485760) : decodeNat w = decodeType3 w := by
  unfold decodeNat
  repeat rw [if_neg (by omega)]
  exact if_pos h
theorem decodeNat_type4 (w : Nat) (h : 6291456 ≤ w) (h' : w < 8388608) : decodeNat w = decodeType4 w := by
  unfold decodeNat
  repeat rw [if_neg (by omega)]
  exact if_pos h
theorem decodeNat_type5 (w : Nat) (h : 5242880 ≤ w) (h' : w < 6291456) : decodeNat w = decodeType5 w := by
  unfold decodeNat
  repeat rw [if_neg (by omega)]
  exact if_pos h
theorem decodeNat_type7 (w : Nat) (h : 3145728 ≤ w) (h' : w < 4194304) : decodeNat w = decodeType7 w := by
  unfold decodeNat
  repeat rw [if_neg (by omega)]
  exact if_pos h
theorem decodeNat_type8 (w : Nat) (h : 2621440 ≤ w) (h' : w < 3145728) : decodeNat w = decodeType8 w := by
  unfold decodeNat
  repeat rw [if_neg (by omega)]
  exact if_pos h
theorem decodeNat_type9 (w : Nat) (h : 2097152 ≤ w) (h' : w < 2621440) : decodeNat w = decodeType9 w := by
  unfold decodeNat
  repeat rw [if_neg (by omega)]
  exact if_pos h
theorem decodeNat_type10 (w : Nat) (h : 1572864 ≤ w) (h' : w < 2097152) : decodeNat w = decodeType10 w := by
  unfold decodeNat
  repeat rw [if_neg (by omega)]
  exact if_pos h
theorem decodeNat_type12 (w : Nat) (h : 1179648 ≤ w) (h' : w < 1310720) : decodeNat w = decodeType12 w := by
  unfold decodeNat
  repeat rw [if_neg (by omega)]
  exact if_pos h
theorem decodeNat_type13 (w : Nat) (h : 1114112 ≤ w) (h' : w < 1179648) : decodeNat w = decodeType13 w := by
  unfold decodeNat
  repeat rw [if_neg (by omega)]
  exact if_pos h
theorem decodeNat_type14 (w : Nat) (h : 1048576 ≤ w) (h' : w < 1114112) : decodeNat w = decodeType14 w := by
  unfold decodeNat
  repeat rw [if_neg (by omega)]
  exact if_pos h
theorem decodeNat_low (w : Nat) (h : w < 1048576) : decodeNat w = decodeLow w := by
  unfold decodeNat
  repeat rw [if_neg (by omega)]

theorem decodeNat_type29 (w : Nat) (h : w / 65536 = 1) : decodeNat w = decodeType29 w := by
  rw [decodeNat_low w (by omega)]; simp [decodeLow, h]
theorem decodeNat_type28 (w : Nat) (h : w / 65536 = 2) : decodeNat w = decodeType28 w := by
  rw [decodeNat_low w (by omega)]; simp [decodeLow, h]
theorem decodeNat_type27 (w : Nat) (h : w / 65536 = 3) : decodeNat w = decodeType27 w := by
  rw [decodeNat_low w (by omega)]; simp [decodeLow, h]
theorem decodeNat_type26 (w : Nat) (h : w / 65536 = 4) : decodeNat w = decodeType26 w := by
  rw [decodeNat_low w (by omega)]; simp [decodeLow, h]
theorem decodeNat_type24 (w : Nat) (h : w / 65536 = 6) : decodeNat w = decodeType24 w := by
  rw [decodeNat_low w (by omega)]; simp [decodeLow, h]
theorem decodeNat_type23 (w : Nat) (h : w / 65536 = 7) : decodeNat w = decodeType23 w := by
  rw [decodeNat_low w (by omega)]; simp [decodeLow, h]
theorem decodeNat_type22 (w : Nat) (h : w / 65536 = 8) : decodeNat w = .instr (.type22 (BitVec.ofNat 16 (w %
    65536))) := by
  rw [decodeNat_low w (by omega)]; simp [decodeLow, h]
theorem decodeNat_type21 (w : Nat) (h : w / 65536 = 9) : decodeNat w = decodeType21 w := by
  rw [decodeNat_low w (by omega)]; simp [decodeLow, h]
theorem decodeNat_type20 (w : Nat) (h : w / 65536 = 10) : decodeNat w = decodeType20 w := by
  rw [decodeNat_low w (by omega)]; simp [decodeLow, h]
theorem decodeNat_type19 (w : Nat) (h : w / 65536 = 11) : decodeNat w = decodeType19 w := by
  rw [decodeNat_low w (by omega)]; simp [decodeLow, h]
theorem decodeNat_type18 (w : Nat) (h : w / 65536 = 12) : decodeNat w = decodeType18 w := by
  rw [decodeNat_low w (by omega)]; simp [decodeLow, h]
theorem decodeNat_type17 (w : Nat) (h : w / 65536 = 13) : decodeNat w = decodeType17 w := by
  rw [decodeNat_low w (by omega)]; simp [decodeLow, h]
theorem decodeNat_type16 (w : Nat) (h : w / 65536 = 14) : decodeNat w = decodeType16 w := by
  rw [decodeNat_low w (by omega)]; simp [decodeLow, h]
theorem decodeNat_type15 (w : Nat) (h : w / 65536 = 15) : decodeNat w = decodeType15 w := by
  rw [decodeNat_low w (by omega)]; simp [decodeLow, h]

/-- The decoder on an encoding: the encoding's number fits in 24 bits, and decodes to the instruction. -/
theorem decode_encode_of (i : Instr) {e : Nat} (he : encodeNat i = e)
    (h : ∀ w, w = e → w < 16777216 ∧ decodeNat w = .instr i) : decode (encode i) = .instr i := by
  obtain ⟨h1, h2⟩ := h e rfl
  unfold decode encode
  rw [BitVec.toNat_ofNat, he, Nat.mod_eq_of_lt h1]
  exact h2

/- One lemma after another: many at once wait for the same equation lemmas, each on a thread of its own. -/
set_option Elab.async false

/-! ### The fields of a word -/

/-- The fields of a word of the layout that the names give. -/
theorem word_type9 {w z amf y x l c : Nat} (h : w = 2097152 + z * 262144 + amf * 8192 + y * 2048 + x * 256 + l * 16
    + c) (hz : z < 2) (hamf : amf < 32) (hy : y < 4) (hx : x < 8) (hl : l < 16) (hc : c < 16) :
    2097152 ≤ w ∧ w < 2621440 ∧ w / 8192 % 32 = amf ∧ w / 16 % 16 = l ∧ w / 16 % 2 = l % 2 ∧ w / 2048 % 4 = y ∧ w /
        256 % 8 = x ∧ w / 262144 % 2 = z ∧ w % 16 = c ∧ w / 256 % 32 = y * 8 + x ∧ w / 64 % 4 = l / 4 ∧ w / 32 % 2
        = l / 2 % 2 ∧ w < 16777216 := by
  and_intros <;> omega

/-- The fields of a word of the layout that the names give. -/
theorem word_type8 {w z amf y x dd sd : Nat} (h : w = 2621440 + z * 262144 + amf * 8192 + y * 2048 + x * 256 + dd *
    16 + sd) (hz : z < 2) (hamf : amf < 32) (hy : y < 4) (hx : x < 8) (hdd : dd < 16) (hsd : sd < 16) :
    2621440 ≤ w ∧ w < 3145728 ∧ w / 8192 % 32 = amf ∧ w / 8192 % 16 = amf % 16 ∧ w / 16 % 16 = dd ∧ w / 2048 % 4 =
        y ∧ w / 256 % 8 = x ∧ w / 262144 % 2 = z ∧ w % 16 = sd ∧ w / 256 % 32 = y * 8 + x ∧ w % 256 = dd * 16 + sd
        ∧ w < 16777216 := by
  and_intros <;> omega

/-- The fields of a word of the layout that the names give. -/
theorem word_type1 {w pd dd cp pi pm di dm : Nat} (h : w = 12582912 + pd * 1048576 + dd * 262144 + cp * 256 + pi *
    64 + pm * 16 + di * 4 + dm) (hpd : pd < 4) (hdd : dd < 4) (hcp : cp < 1024) (hpi : pi < 4) (hpm : pm < 4) (hdi
    : di < 4) (hdm : dm < 4) :
    12582912 ≤ w ∧ w / 1048576 % 4 = pd ∧ w / 262144 % 4 = dd ∧ w / 256 % 1024 = cp ∧ w / 256 % 32 = cp % 32 ∧ w /
        64 % 4 = pi ∧ w / 16 % 4 = pm ∧ w / 4 % 4 = di ∧ w % 4 = dm ∧ w < 16777216 := by
  and_intros <;> omega

/-- The fields of a word of the layout that the names give. -/
theorem word_type4 {w g st z cp d i m : Nat} (h : w = 6291456 + g * 1048576 + st * 524288 + z * 262144 + cp * 256 +
    d * 16 + i * 4 + m) (hg : g < 2) (hst : st < 2) (hz : z < 2) (hcp : cp < 1024) (hd : d < 16) (hi : i < 4) (hm :
    m < 4) :
    6291456 ≤ w ∧ w < 8388608 ∧ w / 1048576 % 2 = g ∧ w / 524288 % 2 = st ∧ w / 262144 % 2 = z ∧ w / 256 % 1024 =
        cp ∧ w / 256 % 32 = cp % 32 ∧ w / 16 % 16 = d ∧ w / 4 % 4 = i ∧ w % 4 = m ∧ w < 16777216 := by
  and_intros <;> omega

/-- The fields of a word of the layout that the names give. -/
theorem word_type5 {w st z cp d i m : Nat} (h : w = 5242880 + st * 524288 + z * 262144 + cp * 256 + d * 16 + i * 4
    + m) (hst : st < 2) (hz : z < 2) (hcp : cp < 1024) (hd : d < 16) (hi : i < 4) (hm : m < 4) :
    5242880 ≤ w ∧ w < 6291456 ∧ w / 524288 % 2 = st ∧ w / 262144 % 2 = z ∧ w / 256 % 1024 = cp ∧ w / 256 % 32 = cp
        % 32 ∧ w / 16 % 16 = d ∧ w / 4 % 4 = i ∧ w % 4 = m ∧ w < 16777216 := by
  and_intros <;> omega

/-- The fields of a word of the layout that the names give. -/
theorem word_type3 {w st g a c : Nat} (h : w = 8388608 + st * 1048576 + g * 262144 + a * 16 + c) (hst : st < 2) (hg
    : g < 4) (ha : a < 16384) (hc : c < 16) :
    8388608 ≤ w ∧ w < 10485760 ∧ w / 1048576 % 2 = st ∧ w / 262144 % 4 = g ∧ w / 16 % 16384 = a ∧ w % 16 = c ∧ w <
        16777216 := by
  and_intros <;> omega

/-- The fields of a word of the layout that the names give. -/
theorem word_type7 {w g a c : Nat} (h : w = 3145728 + g * 262144 + a * 16 + c) (hg : g < 4) (ha : a < 16384) (hc :
    c < 16) :
    3145728 ≤ w ∧ w < 4194304 ∧ w / 262144 % 4 = g ∧ w / 16 % 16384 = a ∧ w % 16 = c ∧ w < 16777216 := by
  and_intros <;> omega

/-- The fields of a word of the layout that the names give. -/
theorem word_typeA {w g v i m : Nat} (h : w = 10485760 + g * 1048576 + v * 16 + i * 4 + m) (hg : g < 2) (hv : v <
    65536) (hi : i < 4) (hm : m < 4) :
    10485760 ≤ w ∧ w < 12582912 ∧ w / 1048576 % 2 = g ∧ w / 16 % 65536 = v ∧ w / 4 % 4 = i ∧ w % 4 = m ∧ w <
        16777216 := by
  and_intros <;> omega

/-- The fields of a word of the layout that the names give. -/
theorem word_type6 {w v d : Nat} (h : w = 4194304 + v * 16 + d) (hv : v < 65536) (hd : d < 16) :
    4194304 ≤ w ∧ w < 5242880 ∧ w / 16 % 65536 = v ∧ w % 16 = d ∧ w < 16777216 := by
  and_intros <;> omega

/-- The fields of a word of the layout that the names give. -/
theorem word_type10 {w k a c : Nat} (h : w = 1572864 + k * 262144 + a * 16 + c) (hk : k < 2) (ha : a < 16384) (hc :
    c < 16) :
    1572864 ≤ w ∧ w < 2097152 ∧ w / 262144 % 2 = k ∧ w / 16 % 16384 = a ∧ w % 16 = c ∧ w < 16777216 := by
  and_intros <;> omega

/-- The fields of a word of the layout that the names give. -/
theorem word_type11 {w a c : Nat} (h : w = 1310720 + a * 16 + c) (ha : a < 16384) (hc : c < 16) :
    1310720 ≤ w ∧ w < 1572864 ∧ w / 16 % 16384 = a ∧ w % 16 = c ∧ w < 16777216 := by
  and_intros <;> omega

/-- The fields of a word of the layout that the names give. -/
theorem word_type12 {w g st fn x d i m : Nat} (h : w = 1179648 + g * 65536 + st * 32768 + fn * 2048 + x * 256 + d *
    16 + i * 4 + m) (hg : g < 2) (hst : st < 2) (hfn : fn < 16) (hx : x < 8) (hd : d < 16) (hi : i < 4) (hm : m < 4) :
    1179648 ≤ w ∧ w < 1310720 ∧ w / 65536 % 2 = g ∧ w / 32768 % 2 = st ∧ w / 2048 % 16 = fn ∧ w / 256 % 8 = x ∧ w /
        16 % 16 = d ∧ w / 4 % 4 = i ∧ w % 4 = m ∧ w < 16777216 := by
  and_intros <;> omega

/-- The fields of a word of the layout that the names give. -/
theorem word_type13 {w st fn x d i m : Nat} (h : w = 1114112 + st * 32768 + fn * 2048 + x * 256 + d * 16 + i * 4 +
    m) (hst : st < 2) (hfn : fn < 16) (hx : x < 8) (hd : d < 16) (hi : i < 4) (hm : m < 4) :
    1114112 ≤ w ∧ w < 1179648 ∧ w / 32768 % 2 = st ∧ w / 2048 % 16 = fn ∧ w / 256 % 8 = x ∧ w / 16 % 16 = d ∧ w / 4
        % 4 = i ∧ w % 4 = m ∧ w < 16777216 := by
  and_intros <;> omega

/-- The fields of a word of the layout that the names give. -/
theorem word_type14 {w fn x d c : Nat} (h : w = 1048576 + fn * 2048 + x * 256 + d * 16 + c) (hfn : fn < 16) (hx : x
    < 8) (hd : d < 16) (hc : c < 16) :
    1048576 ≤ w ∧ w < 1114112 ∧ w / 32768 % 2 = 0 ∧ w / 2048 % 16 = fn ∧ w / 256 % 8 = x ∧ w / 16 % 16 = d ∧ w % 16
        = c ∧ w < 16777216 := by
  and_intros <;> omega

/-- The fields of a word of the layout that the names give. -/
theorem word_type15 {w fn x e : Nat} (h : w = 983040 + fn * 2048 + x * 256 + e) (hfn : fn < 16) (hx : x < 8) (he :
    e < 256) :
    w / 65536 = 15 ∧ w / 32768 % 2 = 0 ∧ w / 2048 % 16 = fn ∧ w / 256 % 8 = x ∧ w % 256 = e ∧ w / 16 % 16 = e / 16
        ∧ w % 16 = e % 16 ∧ w < 16777216 := by
  and_intros <;> omega

/-- The fields of a word of the layout that the names give. -/
theorem word_type16 {w fn x e : Nat} (h : w = 917504 + fn * 2048 + x * 256 + e) (hfn : fn < 16) (hx : x < 8) (he :
    e < 256) :
    w / 65536 = 14 ∧ w / 32768 % 2 = 0 ∧ w / 2048 % 16 = fn ∧ w / 256 % 8 = x ∧ w % 256 = e ∧ w / 16 % 16 = e / 16
        ∧ w % 16 = e % 16 ∧ w < 16777216 := by
  and_intros <;> omega

/-- The fields of a word of the layout that the names give. -/
theorem word_type17 {w dg sg dc sc : Nat} (h : w = 851968 + dg * 1024 + sg * 256 + dc * 16 + sc) (hdg : dg < 4)
    (hsg : sg < 4) (hdc : dc < 16) (hsc : sc < 16) :
    w / 65536 = 13 ∧ w / 4096 % 16 = 0 ∧ w / 1024 % 4 = dg ∧ w / 256 % 4 = sg ∧ w / 16 % 16 = dc ∧ w % 16 = sc ∧ w
        < 16777216 := by
  and_intros <;> omega

/-- The fields of a word of the layout that the names give. -/
theorem word_type27 {w r q f s : Nat} (h : w = 196608 + r * 16 + q * 4 + f * 2 + s) (hr : r < 4096) (hq : q < 4)
    (hf : f < 2) (hs : s < 2) :
    w / 65536 = 3 ∧ w / 4 % 4 = q ∧ w / 16 % 4096 = r ∧ w / 2 % 2 = f ∧ w % 2 = s ∧ w < 16777216 := by
  and_intros <;> omega

namespace Laws

/-- The word of a well-formed instruction decodes to the instruction (30_encoding.md R161 to R192). -/
def RoundTrip.Statement (i : Instr) : Prop := i.wellFormed = true → decode (encode i) = .instr i

theorem RoundTrip.aluPassZero (z : Dest) (x : Xop) (c : Cond) : RoundTrip.Statement (.aluPassZero z x c) := by
  intro hwf
  refine decode_encode_of _ rfl fun w hw => ?_
  obtain ⟨r1, r2, f1, f2, f3, f4, f5, f6, f7, f8, f9, f10, hb⟩ := word_type9 (z := z.code) (amf := 16) (y := 3) (x
      := x.code) (l := 0) (c := c.code) (hw.trans (by
    show 0x221800 + z.code * 262144 + x.code * 256 + c.code = _
    omega)) z.code_lt (by decide) (by decide) x.code_lt (by decide) c.code_lt
  refine ⟨hb, ?_⟩
  rw [decodeNat_type9 _ r1 r2]
  simp [decodeType9, decodeAluReg, f1, f2, f4, f5, f6, f7, Cond.ofCode_code, Dest.ofCode_code, Xop.ofCode_code,
      YReg.ofCode_three]

theorem RoundTrip.aluPassY (z : Dest) (y : YReg) (x : Xop) (c : Cond) : RoundTrip.Statement (.aluPassY z y x c) := by
  intro hwf
  refine decode_encode_of _ rfl fun w hw => ?_
  obtain ⟨r1, r2, f1, f2, f3, f4, f5, f6, f7, f8, f9, f10, hb⟩ := word_type9 (z := z.code) (amf := 16) (y :=
      y.code) (x := x.code) (l := 0) (c := c.code) (hw.trans (by
    show 0x220000 + z.code * 262144 + y.code * 2048 + x.code * 256 + c.code = _
    omega)) z.code_lt (by decide) (Nat.lt_succ_of_lt y.code_lt) x.code_lt (by decide) c.code_lt
  refine ⟨hb, ?_⟩
  rw [decodeNat_type9 _ r1 r2]
  simp [decodeType9, decodeAluReg, f1, f2, f4, f5, f6, f7, Cond.ofCode_code, Dest.ofCode_code, Xop.ofCode_code,
      YReg.ofCode_code]

theorem RoundTrip.aluPassOne (z : Dest) (x : Xop) (c : Cond) : RoundTrip.Statement (.aluPassOne z x c) := by
  intro hwf
  refine decode_encode_of _ rfl fun w hw => ?_
  obtain ⟨r1, r2, f1, f2, f3, f4, f5, f6, f7, f8, f9, f10, hb⟩ := word_type9 (z := z.code) (amf := 17) (y := 3) (x
      := x.code) (l := 0) (c := c.code) (hw.trans (by
    show 0x223800 + z.code * 262144 + x.code * 256 + c.code = _
    omega)) z.code_lt (by decide) (by decide) x.code_lt (by decide) c.code_lt
  refine ⟨hb, ?_⟩
  rw [decodeNat_type9 _ r1 r2]
  simp [decodeType9, decodeAluReg, f1, f2, f4, f5, f6, f7, Cond.ofCode_code, Dest.ofCode_code, Xop.ofCode_code,
      YReg.ofCode_three]

theorem RoundTrip.aluIncY (z : Dest) (y : YReg) (x : Xop) (c : Cond) : RoundTrip.Statement (.aluIncY z y x c) := by
  intro hwf
  refine decode_encode_of _ rfl fun w hw => ?_
  obtain ⟨r1, r2, f1, f2, f3, f4, f5, f6, f7, f8, f9, f10, hb⟩ := word_type9 (z := z.code) (amf := 17) (y :=
      y.code) (x := x.code) (l := 0) (c := c.code) (hw.trans (by
    show 0x222000 + z.code * 262144 + y.code * 2048 + x.code * 256 + c.code = _
    omega)) z.code_lt (by decide) (Nat.lt_succ_of_lt y.code_lt) x.code_lt (by decide) c.code_lt
  refine ⟨hb, ?_⟩
  rw [decodeNat_type9 _ r1 r2]
  simp [decodeType9, decodeAluReg, f1, f2, f4, f5, f6, f7, Cond.ofCode_code, Dest.ofCode_code, Xop.ofCode_code,
      YReg.ofCode_code]

theorem RoundTrip.aluXAddC (z : Dest) (x : Xop) (c : Cond) : RoundTrip.Statement (.aluXAddC z x c) := by
  intro hwf
  refine decode_encode_of _ rfl fun w hw => ?_
  obtain ⟨r1, r2, f1, f2, f3, f4, f5, f6, f7, f8, f9, f10, hb⟩ := word_type9 (z := z.code) (amf := 18) (y := 3) (x
      := x.code) (l := 0) (c := c.code) (hw.trans (by
    show 0x225800 + z.code * 262144 + x.code * 256 + c.code = _
    omega)) z.code_lt (by decide) (by decide) x.code_lt (by decide) c.code_lt
  refine ⟨hb, ?_⟩
  rw [decodeNat_type9 _ r1 r2]
  simp [decodeType9, decodeAluReg, f1, f2, f4, f5, f6, f7, Cond.ofCode_code, Dest.ofCode_code, Xop.ofCode_code,
      YReg.ofCode_three]

theorem RoundTrip.aluAddC (z : Dest) (y : YReg) (x : Xop) (c : Cond) : RoundTrip.Statement (.aluAddC z y x c) := by
  intro hwf
  refine decode_encode_of _ rfl fun w hw => ?_
  obtain ⟨r1, r2, f1, f2, f3, f4, f5, f6, f7, f8, f9, f10, hb⟩ := word_type9 (z := z.code) (amf := 18) (y :=
      y.code) (x := x.code) (l := 0) (c := c.code) (hw.trans (by
    show 0x224000 + z.code * 262144 + y.code * 2048 + x.code * 256 + c.code = _
    omega)) z.code_lt (by decide) (Nat.lt_succ_of_lt y.code_lt) x.code_lt (by decide) c.code_lt
  refine ⟨hb, ?_⟩
  rw [decodeNat_type9 _ r1 r2]
  simp [decodeType9, decodeAluReg, f1, f2, f4, f5, f6, f7, Cond.ofCode_code, Dest.ofCode_code, Xop.ofCode_code,
      YReg.ofCode_code]

theorem RoundTrip.aluPassX (z : Dest) (x : Xop) (c : Cond) : RoundTrip.Statement (.aluPassX z x c) := by
  intro hwf
  refine decode_encode_of _ rfl fun w hw => ?_
  obtain ⟨r1, r2, f1, f2, f3, f4, f5, f6, f7, f8, f9, f10, hb⟩ := word_type9 (z := z.code) (amf := 19) (y := 3) (x
      := x.code) (l := 0) (c := c.code) (hw.trans (by
    show 0x227800 + z.code * 262144 + x.code * 256 + c.code = _
    omega)) z.code_lt (by decide) (by decide) x.code_lt (by decide) c.code_lt
  refine ⟨hb, ?_⟩
  rw [decodeNat_type9 _ r1 r2]
  simp [decodeType9, decodeAluReg, f1, f2, f4, f5, f6, f7, Cond.ofCode_code, Dest.ofCode_code, Xop.ofCode_code,
      YReg.ofCode_three]

theorem RoundTrip.aluAdd (z : Dest) (y : YReg) (x : Xop) (c : Cond) : RoundTrip.Statement (.aluAdd z y x c) := by
  intro hwf
  refine decode_encode_of _ rfl fun w hw => ?_
  obtain ⟨r1, r2, f1, f2, f3, f4, f5, f6, f7, f8, f9, f10, hb⟩ := word_type9 (z := z.code) (amf := 19) (y :=
      y.code) (x := x.code) (l := 0) (c := c.code) (hw.trans (by
    show 0x226000 + z.code * 262144 + y.code * 2048 + x.code * 256 + c.code = _
    omega)) z.code_lt (by decide) (Nat.lt_succ_of_lt y.code_lt) x.code_lt (by decide) c.code_lt
  refine ⟨hb, ?_⟩
  rw [decodeNat_type9 _ r1 r2]
  simp [decodeType9, decodeAluReg, f1, f2, f4, f5, f6, f7, Cond.ofCode_code, Dest.ofCode_code, Xop.ofCode_code,
      YReg.ofCode_code]

theorem RoundTrip.aluNotZero (z : Dest) (x : Xop) (c : Cond) : RoundTrip.Statement (.aluNotZero z x c) := by
  intro hwf
  refine decode_encode_of _ rfl fun w hw => ?_
  obtain ⟨r1, r2, f1, f2, f3, f4, f5, f6, f7, f8, f9, f10, hb⟩ := word_type9 (z := z.code) (amf := 20) (y := 3) (x
      := x.code) (l := 0) (c := c.code) (hw.trans (by
    show 0x229800 + z.code * 262144 + x.code * 256 + c.code = _
    omega)) z.code_lt (by decide) (by decide) x.code_lt (by decide) c.code_lt
  refine ⟨hb, ?_⟩
  rw [decodeNat_type9 _ r1 r2]
  simp [decodeType9, decodeAluReg, f1, f2, f4, f5, f6, f7, Cond.ofCode_code, Dest.ofCode_code, Xop.ofCode_code,
      YReg.ofCode_three]

theorem RoundTrip.aluNotY (z : Dest) (y : YReg) (x : Xop) (c : Cond) : RoundTrip.Statement (.aluNotY z y x c) := by
  intro hwf
  refine decode_encode_of _ rfl fun w hw => ?_
  obtain ⟨r1, r2, f1, f2, f3, f4, f5, f6, f7, f8, f9, f10, hb⟩ := word_type9 (z := z.code) (amf := 20) (y :=
      y.code) (x := x.code) (l := 0) (c := c.code) (hw.trans (by
    show 0x228000 + z.code * 262144 + y.code * 2048 + x.code * 256 + c.code = _
    omega)) z.code_lt (by decide) (Nat.lt_succ_of_lt y.code_lt) x.code_lt (by decide) c.code_lt
  refine ⟨hb, ?_⟩
  rw [decodeNat_type9 _ r1 r2]
  simp [decodeType9, decodeAluReg, f1, f2, f4, f5, f6, f7, Cond.ofCode_code, Dest.ofCode_code, Xop.ofCode_code,
      YReg.ofCode_code]

theorem RoundTrip.aluNegY (z : Dest) (y : Yop) (x : Xop) (c : Cond) : RoundTrip.Statement (.aluNegY z y x c) := by
  intro hwf
  refine decode_encode_of _ rfl fun w hw => ?_
  obtain ⟨r1, r2, f1, f2, f3, f4, f5, f6, f7, f8, f9, f10, hb⟩ := word_type9 (z := z.code) (amf := 21) (y :=
      y.code) (x := x.code) (l := 0) (c := c.code) (hw.trans (by
    show 0x22A000 + z.code * 262144 + y.code * 2048 + x.code * 256 + c.code = _
    omega)) z.code_lt (by decide) y.code_lt x.code_lt (by decide) c.code_lt
  refine ⟨hb, ?_⟩
  rw [decodeNat_type9 _ r1 r2]
  simp [decodeType9, decodeAluReg, f1, f2, f4, f5, f6, f7, Cond.ofCode_code, Dest.ofCode_code, Xop.ofCode_code,
      Yop.ofCode_code]

theorem RoundTrip.aluXSubBorrow (z : Dest) (x : Xop) (c : Cond) : RoundTrip.Statement (.aluXSubBorrow z x c) := by
  intro hwf
  refine decode_encode_of _ rfl fun w hw => ?_
  obtain ⟨r1, r2, f1, f2, f3, f4, f5, f6, f7, f8, f9, f10, hb⟩ := word_type9 (z := z.code) (amf := 22) (y := 3) (x
      := x.code) (l := 0) (c := c.code) (hw.trans (by
    show 0x22D800 + z.code * 262144 + x.code * 256 + c.code = _
    omega)) z.code_lt (by decide) (by decide) x.code_lt (by decide) c.code_lt
  refine ⟨hb, ?_⟩
  rw [decodeNat_type9 _ r1 r2]
  simp [decodeType9, decodeAluReg, f1, f2, f4, f5, f6, f7, Cond.ofCode_code, Dest.ofCode_code, Xop.ofCode_code,
      YReg.ofCode_three]

theorem RoundTrip.aluSubBorrow (z : Dest) (y : YReg) (x : Xop) (c : Cond) : RoundTrip.Statement (.aluSubBorrow z y
    x c) := by
  intro hwf
  refine decode_encode_of _ rfl fun w hw => ?_
  obtain ⟨r1, r2, f1, f2, f3, f4, f5, f6, f7, f8, f9, f10, hb⟩ := word_type9 (z := z.code) (amf := 22) (y :=
      y.code) (x := x.code) (l := 0) (c := c.code) (hw.trans (by
    show 0x22C000 + z.code * 262144 + y.code * 2048 + x.code * 256 + c.code = _
    omega)) z.code_lt (by decide) (Nat.lt_succ_of_lt y.code_lt) x.code_lt (by decide) c.code_lt
  refine ⟨hb, ?_⟩
  rw [decodeNat_type9 _ r1 r2]
  simp [decodeType9, decodeAluReg, f1, f2, f4, f5, f6, f7, Cond.ofCode_code, Dest.ofCode_code, Xop.ofCode_code,
      YReg.ofCode_code]

theorem RoundTrip.aluSub (z : Dest) (y : Yop) (x : Xop) (c : Cond) : RoundTrip.Statement (.aluSub z y x c) := by
  intro hwf
  refine decode_encode_of _ rfl fun w hw => ?_
  obtain ⟨r1, r2, f1, f2, f3, f4, f5, f6, f7, f8, f9, f10, hb⟩ := word_type9 (z := z.code) (amf := 23) (y :=
      y.code) (x := x.code) (l := 0) (c := c.code) (hw.trans (by
    show 0x22E000 + z.code * 262144 + y.code * 2048 + x.code * 256 + c.code = _
    omega)) z.code_lt (by decide) y.code_lt x.code_lt (by decide) c.code_lt
  refine ⟨hb, ?_⟩
  rw [decodeNat_type9 _ r1 r2]
  simp [decodeType9, decodeAluReg, f1, f2, f4, f5, f6, f7, Cond.ofCode_code, Dest.ofCode_code, Xop.ofCode_code,
      Yop.ofCode_code]

theorem RoundTrip.aluPassNegOne (z : Dest) (x : Xop) (c : Cond) : RoundTrip.Statement (.aluPassNegOne z x c) := by
  intro hwf
  refine decode_encode_of _ rfl fun w hw => ?_
  obtain ⟨r1, r2, f1, f2, f3, f4, f5, f6, f7, f8, f9, f10, hb⟩ := word_type9 (z := z.code) (amf := 24) (y := 3) (x
      := x.code) (l := 0) (c := c.code) (hw.trans (by
    show 0x231800 + z.code * 262144 + x.code * 256 + c.code = _
    omega)) z.code_lt (by decide) (by decide) x.code_lt (by decide) c.code_lt
  refine ⟨hb, ?_⟩
  rw [decodeNat_type9 _ r1 r2]
  simp [decodeType9, decodeAluReg, f1, f2, f4, f5, f6, f7, Cond.ofCode_code, Dest.ofCode_code, Xop.ofCode_code,
      YReg.ofCode_three]

theorem RoundTrip.aluDecY (z : Dest) (y : YReg) (x : Xop) (c : Cond) : RoundTrip.Statement (.aluDecY z y x c) := by
  intro hwf
  refine decode_encode_of _ rfl fun w hw => ?_
  obtain ⟨r1, r2, f1, f2, f3, f4, f5, f6, f7, f8, f9, f10, hb⟩ := word_type9 (z := z.code) (amf := 24) (y :=
      y.code) (x := x.code) (l := 0) (c := c.code) (hw.trans (by
    show 0x230000 + z.code * 262144 + y.code * 2048 + x.code * 256 + c.code = _
    omega)) z.code_lt (by decide) (Nat.lt_succ_of_lt y.code_lt) x.code_lt (by decide) c.code_lt
  refine ⟨hb, ?_⟩
  rw [decodeNat_type9 _ r1 r2]
  simp [decodeType9, decodeAluReg, f1, f2, f4, f5, f6, f7, Cond.ofCode_code, Dest.ofCode_code, Xop.ofCode_code,
      YReg.ofCode_code]

theorem RoundTrip.aluNegX (z : Dest) (x : Xop) (c : Cond) : RoundTrip.Statement (.aluNegX z x c) := by
  intro hwf
  refine decode_encode_of _ rfl fun w hw => ?_
  obtain ⟨r1, r2, f1, f2, f3, f4, f5, f6, f7, f8, f9, f10, hb⟩ := word_type9 (z := z.code) (amf := 25) (y := 3) (x
      := x.code) (l := 0) (c := c.code) (hw.trans (by
    show 0x233800 + z.code * 262144 + x.code * 256 + c.code = _
    omega)) z.code_lt (by decide) (by decide) x.code_lt (by decide) c.code_lt
  refine ⟨hb, ?_⟩
  rw [decodeNat_type9 _ r1 r2]
  simp [decodeType9, decodeAluReg, f1, f2, f4, f5, f6, f7, Cond.ofCode_code, Dest.ofCode_code, Xop.ofCode_code,
      YReg.ofCode_three]

theorem RoundTrip.aluRsub (z : Dest) (y : YReg) (x : Xop) (c : Cond) : RoundTrip.Statement (.aluRsub z y x c) := by
  intro hwf
  refine decode_encode_of _ rfl fun w hw => ?_
  obtain ⟨r1, r2, f1, f2, f3, f4, f5, f6, f7, f8, f9, f10, hb⟩ := word_type9 (z := z.code) (amf := 25) (y :=
      y.code) (x := x.code) (l := 0) (c := c.code) (hw.trans (by
    show 0x232000 + z.code * 262144 + y.code * 2048 + x.code * 256 + c.code = _
    omega)) z.code_lt (by decide) (Nat.lt_succ_of_lt y.code_lt) x.code_lt (by decide) c.code_lt
  refine ⟨hb, ?_⟩
  rw [decodeNat_type9 _ r1 r2]
  simp [decodeType9, decodeAluReg, f1, f2, f4, f5, f6, f7, Cond.ofCode_code, Dest.ofCode_code, Xop.ofCode_code,
      YReg.ofCode_code]

theorem RoundTrip.aluNegXBorrow (z : Dest) (x : Xop) (c : Cond) : RoundTrip.Statement (.aluNegXBorrow z x c) := by
  intro hwf
  refine decode_encode_of _ rfl fun w hw => ?_
  obtain ⟨r1, r2, f1, f2, f3, f4, f5, f6, f7, f8, f9, f10, hb⟩ := word_type9 (z := z.code) (amf := 26) (y := 3) (x
      := x.code) (l := 0) (c := c.code) (hw.trans (by
    show 0x235800 + z.code * 262144 + x.code * 256 + c.code = _
    omega)) z.code_lt (by decide) (by decide) x.code_lt (by decide) c.code_lt
  refine ⟨hb, ?_⟩
  rw [decodeNat_type9 _ r1 r2]
  simp [decodeType9, decodeAluReg, f1, f2, f4, f5, f6, f7, Cond.ofCode_code, Dest.ofCode_code, Xop.ofCode_code,
      YReg.ofCode_three]

theorem RoundTrip.aluRsubBorrow (z : Dest) (y : YReg) (x : Xop) (c : Cond) : RoundTrip.Statement (.aluRsubBorrow z
    y x c) := by
  intro hwf
  refine decode_encode_of _ rfl fun w hw => ?_
  obtain ⟨r1, r2, f1, f2, f3, f4, f5, f6, f7, f8, f9, f10, hb⟩ := word_type9 (z := z.code) (amf := 26) (y :=
      y.code) (x := x.code) (l := 0) (c := c.code) (hw.trans (by
    show 0x234000 + z.code * 262144 + y.code * 2048 + x.code * 256 + c.code = _
    omega)) z.code_lt (by decide) (Nat.lt_succ_of_lt y.code_lt) x.code_lt (by decide) c.code_lt
  refine ⟨hb, ?_⟩
  rw [decodeNat_type9 _ r1 r2]
  simp [decodeType9, decodeAluReg, f1, f2, f4, f5, f6, f7, Cond.ofCode_code, Dest.ofCode_code, Xop.ofCode_code,
      YReg.ofCode_code]

theorem RoundTrip.aluNotX (z : Dest) (y : Yop) (x : Xop) (c : Cond) : RoundTrip.Statement (.aluNotX z y x c) := by
  intro hwf
  refine decode_encode_of _ rfl fun w hw => ?_
  obtain ⟨r1, r2, f1, f2, f3, f4, f5, f6, f7, f8, f9, f10, hb⟩ := word_type9 (z := z.code) (amf := 27) (y :=
      y.code) (x := x.code) (l := 0) (c := c.code) (hw.trans (by
    show 0x236000 + z.code * 262144 + y.code * 2048 + x.code * 256 + c.code = _
    omega)) z.code_lt (by decide) y.code_lt x.code_lt (by decide) c.code_lt
  refine ⟨hb, ?_⟩
  rw [decodeNat_type9 _ r1 r2]
  simp [decodeType9, decodeAluReg, f1, f2, f4, f5, f6, f7, Cond.ofCode_code, Dest.ofCode_code, Xop.ofCode_code,
      Yop.ofCode_code]

theorem RoundTrip.aluAnd (z : Dest) (y : Yop) (x : Xop) (c : Cond) : RoundTrip.Statement (.aluAnd z y x c) := by
  intro hwf
  refine decode_encode_of _ rfl fun w hw => ?_
  obtain ⟨r1, r2, f1, f2, f3, f4, f5, f6, f7, f8, f9, f10, hb⟩ := word_type9 (z := z.code) (amf := 28) (y :=
      y.code) (x := x.code) (l := 0) (c := c.code) (hw.trans (by
    show 0x238000 + z.code * 262144 + y.code * 2048 + x.code * 256 + c.code = _
    omega)) z.code_lt (by decide) y.code_lt x.code_lt (by decide) c.code_lt
  refine ⟨hb, ?_⟩
  rw [decodeNat_type9 _ r1 r2]
  simp [decodeType9, decodeAluReg, f1, f2, f4, f5, f6, f7, Cond.ofCode_code, Dest.ofCode_code, Xop.ofCode_code,
      Yop.ofCode_code]

theorem RoundTrip.aluOr (z : Dest) (y : Yop) (x : Xop) (c : Cond) : RoundTrip.Statement (.aluOr z y x c) := by
  intro hwf
  refine decode_encode_of _ rfl fun w hw => ?_
  obtain ⟨r1, r2, f1, f2, f3, f4, f5, f6, f7, f8, f9, f10, hb⟩ := word_type9 (z := z.code) (amf := 29) (y :=
      y.code) (x := x.code) (l := 0) (c := c.code) (hw.trans (by
    show 0x23A000 + z.code * 262144 + y.code * 2048 + x.code * 256 + c.code = _
    omega)) z.code_lt (by decide) y.code_lt x.code_lt (by decide) c.code_lt
  refine ⟨hb, ?_⟩
  rw [decodeNat_type9 _ r1 r2]
  simp [decodeType9, decodeAluReg, f1, f2, f4, f5, f6, f7, Cond.ofCode_code, Dest.ofCode_code, Xop.ofCode_code,
      Yop.ofCode_code]

theorem RoundTrip.aluXor (z : Dest) (y : Yop) (x : Xop) (c : Cond) : RoundTrip.Statement (.aluXor z y x c) := by
  intro hwf
  refine decode_encode_of _ rfl fun w hw => ?_
  obtain ⟨r1, r2, f1, f2, f3, f4, f5, f6, f7, f8, f9, f10, hb⟩ := word_type9 (z := z.code) (amf := 30) (y :=
      y.code) (x := x.code) (l := 0) (c := c.code) (hw.trans (by
    show 0x23C000 + z.code * 262144 + y.code * 2048 + x.code * 256 + c.code = _
    omega)) z.code_lt (by decide) y.code_lt x.code_lt (by decide) c.code_lt
  refine ⟨hb, ?_⟩
  rw [decodeNat_type9 _ r1 r2]
  simp [decodeType9, decodeAluReg, f1, f2, f4, f5, f6, f7, Cond.ofCode_code, Dest.ofCode_code, Xop.ofCode_code,
      Yop.ofCode_code]

theorem RoundTrip.aluAbs (z : Dest) (y : Yop) (x : Xop) (c : Cond) : RoundTrip.Statement (.aluAbs z y x c) := by
  intro hwf
  refine decode_encode_of _ rfl fun w hw => ?_
  obtain ⟨r1, r2, f1, f2, f3, f4, f5, f6, f7, f8, f9, f10, hb⟩ := word_type9 (z := z.code) (amf := 31) (y :=
      y.code) (x := x.code) (l := 0) (c := c.code) (hw.trans (by
    show 0x23E000 + z.code * 262144 + y.code * 2048 + x.code * 256 + c.code = _
    omega)) z.code_lt (by decide) y.code_lt x.code_lt (by decide) c.code_lt
  refine ⟨hb, ?_⟩
  rw [decodeNat_type9 _ r1 r2]
  simp [decodeType9, decodeAluReg, f1, f2, f4, f5, f6, f7, Cond.ofCode_code, Dest.ofCode_code, Xop.ofCode_code,
      Yop.ofCode_code]

theorem RoundTrip.aluPassConst (z : Dest) (k : Const) (x : Xop) (c : Cond) : RoundTrip.Statement (.aluPassConst z k
    x c) := by
  intro hwf
  obtain ⟨k1, k2, k3, k4, k5⟩ := k.low_fields
  refine decode_encode_of _ rfl fun w hw => ?_
  obtain ⟨r1, r2, f1, f2, f3, f4, f5, f6, f7, f8, f9, f10, hb⟩ := word_type9 (z := z.code) (amf := 16) (y :=
      k.n.val / 4) (x := x.code) (l := k.low) (c := c.code) (hw.trans (by
    show 0x220000 + z.code * 262144 + k.bits + x.code * 256 + c.code = _
    rw [Const.bits, Const.low]
    ring)) z.code_lt (by decide) k1 x.code_lt k2 c.code_lt
  refine ⟨hb, ?_⟩
  rw [decodeNat_type9 _ r1 r2]
  have fk : Const.ofBits w = k := Const.ofBits_eq k f4 (f9.trans k3) (f10.trans k4)
  simp [decodeType9, decodeAluConst, f1, f2, f3, f5, f6, f7, Cond.ofCode_code, Dest.ofCode_code, Xop.ofCode_code,
      fk, k5, k.low_ne]

theorem RoundTrip.aluPassConstInc (z : Dest) (k : Const) (x : Xop) (c : Cond) : RoundTrip.Statement
    (.aluPassConstInc z k x c) := by
  intro hwf
  obtain ⟨k1, k2, k3, k4, k5⟩ := k.low_fields
  refine decode_encode_of _ rfl fun w hw => ?_
  obtain ⟨r1, r2, f1, f2, f3, f4, f5, f6, f7, f8, f9, f10, hb⟩ := word_type9 (z := z.code) (amf := 17) (y :=
      k.n.val / 4) (x := x.code) (l := k.low) (c := c.code) (hw.trans (by
    show 0x222000 + z.code * 262144 + k.bits + x.code * 256 + c.code = _
    rw [Const.bits, Const.low]
    ring)) z.code_lt (by decide) k1 x.code_lt k2 c.code_lt
  refine ⟨hb, ?_⟩
  rw [decodeNat_type9 _ r1 r2]
  have fk : Const.ofBits w = k := Const.ofBits_eq k f4 (f9.trans k3) (f10.trans k4)
  simp [decodeType9, decodeAluConst, f1, f2, f3, f5, f6, f7, Cond.ofCode_code, Dest.ofCode_code, Xop.ofCode_code,
      fk, k5, k.low_ne]

theorem RoundTrip.aluPassConstDec (z : Dest) (k : Const) (x : Xop) (c : Cond) : RoundTrip.Statement
    (.aluPassConstDec z k x c) := by
  intro hwf
  obtain ⟨k1, k2, k3, k4, k5⟩ := k.low_fields
  refine decode_encode_of _ rfl fun w hw => ?_
  obtain ⟨r1, r2, f1, f2, f3, f4, f5, f6, f7, f8, f9, f10, hb⟩ := word_type9 (z := z.code) (amf := 24) (y :=
      k.n.val / 4) (x := x.code) (l := k.low) (c := c.code) (hw.trans (by
    show 0x230000 + z.code * 262144 + k.bits + x.code * 256 + c.code = _
    rw [Const.bits, Const.low]
    ring)) z.code_lt (by decide) k1 x.code_lt k2 c.code_lt
  refine ⟨hb, ?_⟩
  rw [decodeNat_type9 _ r1 r2]
  have fk : Const.ofBits w = k := Const.ofBits_eq k f4 (f9.trans k3) (f10.trans k4)
  simp [decodeType9, decodeAluConst, f1, f2, f3, f5, f6, f7, Cond.ofCode_code, Dest.ofCode_code, Xop.ofCode_code,
      fk, k5, k.low_ne]

theorem RoundTrip.aluAddConstC (z : Dest) (k : Const) (x : Xop) (c : Cond) : RoundTrip.Statement (.aluAddConstC z k
    x c) := by
  intro hwf
  obtain ⟨k1, k2, k3, k4, k5⟩ := k.low_fields
  refine decode_encode_of _ rfl fun w hw => ?_
  obtain ⟨r1, r2, f1, f2, f3, f4, f5, f6, f7, f8, f9, f10, hb⟩ := word_type9 (z := z.code) (amf := 18) (y :=
      k.n.val / 4) (x := x.code) (l := k.low) (c := c.code) (hw.trans (by
    show 0x224000 + z.code * 262144 + k.bits + x.code * 256 + c.code = _
    rw [Const.bits, Const.low]
    ring)) z.code_lt (by decide) k1 x.code_lt k2 c.code_lt
  refine ⟨hb, ?_⟩
  rw [decodeNat_type9 _ r1 r2]
  have fk : Const.ofBits w = k := Const.ofBits_eq k f4 (f9.trans k3) (f10.trans k4)
  simp [decodeType9, decodeAluConst, f1, f2, f3, f5, f6, f7, Cond.ofCode_code, Dest.ofCode_code, Xop.ofCode_code,
      fk, k5, k.low_ne]

theorem RoundTrip.aluAddConst (z : Dest) (k : Const) (x : Xop) (c : Cond) : RoundTrip.Statement (.aluAddConst z k x
    c) := by
  intro hwf
  obtain ⟨k1, k2, k3, k4, k5⟩ := k.low_fields
  refine decode_encode_of _ rfl fun w hw => ?_
  obtain ⟨r1, r2, f1, f2, f3, f4, f5, f6, f7, f8, f9, f10, hb⟩ := word_type9 (z := z.code) (amf := 19) (y :=
      k.n.val / 4) (x := x.code) (l := k.low) (c := c.code) (hw.trans (by
    show 0x226000 + z.code * 262144 + k.bits + x.code * 256 + c.code = _
    rw [Const.bits, Const.low]
    ring)) z.code_lt (by decide) k1 x.code_lt k2 c.code_lt
  refine ⟨hb, ?_⟩
  rw [decodeNat_type9 _ r1 r2]
  have fk : Const.ofBits w = k := Const.ofBits_eq k f4 (f9.trans k3) (f10.trans k4)
  simp [decodeType9, decodeAluConst, f1, f2, f3, f5, f6, f7, Cond.ofCode_code, Dest.ofCode_code, Xop.ofCode_code,
      fk, k5, k.low_ne]

theorem RoundTrip.aluSubConstBorrow (z : Dest) (k : Const) (x : Xop) (c : Cond) : RoundTrip.Statement
    (.aluSubConstBorrow z k x c) := by
  intro hwf
  obtain ⟨k1, k2, k3, k4, k5⟩ := k.low_fields
  refine decode_encode_of _ rfl fun w hw => ?_
  obtain ⟨r1, r2, f1, f2, f3, f4, f5, f6, f7, f8, f9, f10, hb⟩ := word_type9 (z := z.code) (amf := 22) (y :=
      k.n.val / 4) (x := x.code) (l := k.low) (c := c.code) (hw.trans (by
    show 0x22C000 + z.code * 262144 + k.bits + x.code * 256 + c.code = _
    rw [Const.bits, Const.low]
    ring)) z.code_lt (by decide) k1 x.code_lt k2 c.code_lt
  refine ⟨hb, ?_⟩
  rw [decodeNat_type9 _ r1 r2]
  have fk : Const.ofBits w = k := Const.ofBits_eq k f4 (f9.trans k3) (f10.trans k4)
  simp [decodeType9, decodeAluConst, f1, f2, f3, f5, f6, f7, Cond.ofCode_code, Dest.ofCode_code, Xop.ofCode_code,
      fk, k5, k.low_ne]

theorem RoundTrip.aluSubConst (z : Dest) (k : Const) (x : Xop) (c : Cond) : RoundTrip.Statement (.aluSubConst z k x
    c) := by
  intro hwf
  obtain ⟨k1, k2, k3, k4, k5⟩ := k.low_fields
  refine decode_encode_of _ rfl fun w hw => ?_
  obtain ⟨r1, r2, f1, f2, f3, f4, f5, f6, f7, f8, f9, f10, hb⟩ := word_type9 (z := z.code) (amf := 23) (y :=
      k.n.val / 4) (x := x.code) (l := k.low) (c := c.code) (hw.trans (by
    show 0x22E000 + z.code * 262144 + k.bits + x.code * 256 + c.code = _
    rw [Const.bits, Const.low]
    ring)) z.code_lt (by decide) k1 x.code_lt k2 c.code_lt
  refine ⟨hb, ?_⟩
  rw [decodeNat_type9 _ r1 r2]
  have fk : Const.ofBits w = k := Const.ofBits_eq k f4 (f9.trans k3) (f10.trans k4)
  simp [decodeType9, decodeAluConst, f1, f2, f3, f5, f6, f7, Cond.ofCode_code, Dest.ofCode_code, Xop.ofCode_code,
      fk, k5, k.low_ne]

theorem RoundTrip.aluRsubConst (z : Dest) (k : Const) (x : Xop) (c : Cond) : RoundTrip.Statement (.aluRsubConst z k
    x c) := by
  intro hwf
  obtain ⟨k1, k2, k3, k4, k5⟩ := k.low_fields
  refine decode_encode_of _ rfl fun w hw => ?_
  obtain ⟨r1, r2, f1, f2, f3, f4, f5, f6, f7, f8, f9, f10, hb⟩ := word_type9 (z := z.code) (amf := 25) (y :=
      k.n.val / 4) (x := x.code) (l := k.low) (c := c.code) (hw.trans (by
    show 0x232000 + z.code * 262144 + k.bits + x.code * 256 + c.code = _
    rw [Const.bits, Const.low]
    ring)) z.code_lt (by decide) k1 x.code_lt k2 c.code_lt
  refine ⟨hb, ?_⟩
  rw [decodeNat_type9 _ r1 r2]
  have fk : Const.ofBits w = k := Const.ofBits_eq k f4 (f9.trans k3) (f10.trans k4)
  simp [decodeType9, decodeAluConst, f1, f2, f3, f5, f6, f7, Cond.ofCode_code, Dest.ofCode_code, Xop.ofCode_code,
      fk, k5, k.low_ne]

theorem RoundTrip.aluRsubConstBorrow (z : Dest) (k : Const) (x : Xop) (c : Cond) : RoundTrip.Statement
    (.aluRsubConstBorrow z k x c) := by
  intro hwf
  obtain ⟨k1, k2, k3, k4, k5⟩ := k.low_fields
  refine decode_encode_of _ rfl fun w hw => ?_
  obtain ⟨r1, r2, f1, f2, f3, f4, f5, f6, f7, f8, f9, f10, hb⟩ := word_type9 (z := z.code) (amf := 26) (y :=
      k.n.val / 4) (x := x.code) (l := k.low) (c := c.code) (hw.trans (by
    show 0x234000 + z.code * 262144 + k.bits + x.code * 256 + c.code = _
    rw [Const.bits, Const.low]
    ring)) z.code_lt (by decide) k1 x.code_lt k2 c.code_lt
  refine ⟨hb, ?_⟩
  rw [decodeNat_type9 _ r1 r2]
  have fk : Const.ofBits w = k := Const.ofBits_eq k f4 (f9.trans k3) (f10.trans k4)
  simp [decodeType9, decodeAluConst, f1, f2, f3, f5, f6, f7, Cond.ofCode_code, Dest.ofCode_code, Xop.ofCode_code,
      fk, k5, k.low_ne]

theorem RoundTrip.aluAndConst (z : Dest) (k : Const) (x : Xop) (c : Cond) : RoundTrip.Statement (.aluAndConst z k x
    c) := by
  intro hwf
  obtain ⟨k1, k2, k3, k4, k5⟩ := k.low_fields
  refine decode_encode_of _ rfl fun w hw => ?_
  obtain ⟨r1, r2, f1, f2, f3, f4, f5, f6, f7, f8, f9, f10, hb⟩ := word_type9 (z := z.code) (amf := 28) (y :=
      k.n.val / 4) (x := x.code) (l := k.low) (c := c.code) (hw.trans (by
    show 0x238000 + z.code * 262144 + k.bits + x.code * 256 + c.code = _
    rw [Const.bits, Const.low]
    ring)) z.code_lt (by decide) k1 x.code_lt k2 c.code_lt
  refine ⟨hb, ?_⟩
  rw [decodeNat_type9 _ r1 r2]
  have fk : Const.ofBits w = k := Const.ofBits_eq k f4 (f9.trans k3) (f10.trans k4)
  simp [decodeType9, decodeAluConst, f1, f2, f3, f5, f6, f7, Cond.ofCode_code, Dest.ofCode_code, Xop.ofCode_code,
      fk, k5, k.low_ne]

theorem RoundTrip.aluOrConst (z : Dest) (k : Const) (x : Xop) (c : Cond) : RoundTrip.Statement (.aluOrConst z k x
    c) := by
  intro hwf
  obtain ⟨k1, k2, k3, k4, k5⟩ := k.low_fields
  refine decode_encode_of _ rfl fun w hw => ?_
  obtain ⟨r1, r2, f1, f2, f3, f4, f5, f6, f7, f8, f9, f10, hb⟩ := word_type9 (z := z.code) (amf := 29) (y :=
      k.n.val / 4) (x := x.code) (l := k.low) (c := c.code) (hw.trans (by
    show 0x23A000 + z.code * 262144 + k.bits + x.code * 256 + c.code = _
    rw [Const.bits, Const.low]
    ring)) z.code_lt (by decide) k1 x.code_lt k2 c.code_lt
  refine ⟨hb, ?_⟩
  rw [decodeNat_type9 _ r1 r2]
  have fk : Const.ofBits w = k := Const.ofBits_eq k f4 (f9.trans k3) (f10.trans k4)
  simp [decodeType9, decodeAluConst, f1, f2, f3, f5, f6, f7, Cond.ofCode_code, Dest.ofCode_code, Xop.ofCode_code,
      fk, k5, k.low_ne]

theorem RoundTrip.aluXorConst (z : Dest) (k : Const) (x : Xop) (c : Cond) : RoundTrip.Statement (.aluXorConst z k x
    c) := by
  intro hwf
  obtain ⟨k1, k2, k3, k4, k5⟩ := k.low_fields
  refine decode_encode_of _ rfl fun w hw => ?_
  obtain ⟨r1, r2, f1, f2, f3, f4, f5, f6, f7, f8, f9, f10, hb⟩ := word_type9 (z := z.code) (amf := 30) (y :=
      k.n.val / 4) (x := x.code) (l := k.low) (c := c.code) (hw.trans (by
    show 0x23C000 + z.code * 262144 + k.bits + x.code * 256 + c.code = _
    rw [Const.bits, Const.low]
    ring)) z.code_lt (by decide) k1 x.code_lt k2 c.code_lt
  refine ⟨hb, ?_⟩
  rw [decodeNat_type9 _ r1 r2]
  have fk : Const.ofBits w = k := Const.ofBits_eq k f4 (f9.trans k3) (f10.trans k4)
  simp [decodeType9, decodeAluConst, f1, f2, f3, f5, f6, f7, Cond.ofCode_code, Dest.ofCode_code, Xop.ofCode_code,
      fk, k5, k.low_ne]

theorem RoundTrip.aluNotConst (z : Dest) (k : Const) (x : Xop) (c : Cond) : RoundTrip.Statement (.aluNotConst z k x
    c) := by
  intro hwf
  obtain ⟨k1, k2, k3, k4, k5⟩ := k.low_fields
  refine decode_encode_of _ rfl fun w hw => ?_
  obtain ⟨r1, r2, f1, f2, f3, f4, f5, f6, f7, f8, f9, f10, hb⟩ := word_type9 (z := z.code) (amf := 20) (y :=
      k.n.val / 4) (x := x.code) (l := k.low) (c := c.code) (hw.trans (by
    show 0x228000 + z.code * 262144 + k.bits + x.code * 256 + c.code = _
    rw [Const.bits, Const.low]
    ring)) z.code_lt (by decide) k1 x.code_lt k2 c.code_lt
  refine ⟨hb, ?_⟩
  rw [decodeNat_type9 _ r1 r2]
  have fk : Const.ofBits w = k := Const.ofBits_eq k f4 (f9.trans k3) (f10.trans k4)
  simp [decodeType9, decodeAluConst, f1, f2, f3, f5, f6, f7, Cond.ofCode_code, Dest.ofCode_code, Xop.ofCode_code,
      fk, k5, k.low_ne]

theorem RoundTrip.aluNegConst (z : Dest) (k : Const) (x : Xop) (c : Cond) : RoundTrip.Statement (.aluNegConst z k x
    c) := by
  intro hwf
  obtain ⟨k1, k2, k3, k4, k5⟩ := k.low_fields
  refine decode_encode_of _ rfl fun w hw => ?_
  obtain ⟨r1, r2, f1, f2, f3, f4, f5, f6, f7, f8, f9, f10, hb⟩ := word_type9 (z := z.code) (amf := 21) (y :=
      k.n.val / 4) (x := x.code) (l := k.low) (c := c.code) (hw.trans (by
    show 0x22A000 + z.code * 262144 + k.bits + x.code * 256 + c.code = _
    rw [Const.bits, Const.low]
    ring)) z.code_lt (by decide) k1 x.code_lt k2 c.code_lt
  refine ⟨hb, ?_⟩
  rw [decodeNat_type9 _ r1 r2]
  have fk : Const.ofBits w = k := Const.ofBits_eq k f4 (f9.trans k3) (f10.trans k4)
  simp [decodeType9, decodeAluConst, f1, f2, f3, f5, f6, f7, Cond.ofCode_code, Dest.ofCode_code, Xop.ofCode_code,
      fk, k5, k.low_ne]

theorem RoundTrip.macSqRnd (z : Dest) (x : Xop) (c : Cond) : RoundTrip.Statement (.macSqRnd z x c) := by
  intro hwf
  refine decode_encode_of _ rfl fun w hw => ?_
  obtain ⟨r1, r2, f1, f2, f3, f4, f5, f6, f7, f8, f9, f10, hb⟩ := word_type9 (z := z.code) (amf := 1) (y := 0) (x
      := x.code) (l := 1) (c := c.code) (hw.trans (by
    show 0x202010 + z.code * 262144 + x.code * 256 + c.code = _
    omega)) z.code_lt (by decide) (by decide) x.code_lt (by decide) c.code_lt
  refine ⟨hb, ?_⟩
  rw [decodeNat_type9 _ r1 r2]
  simp [decodeType9, decodeMacSquare, f1, f2, f4, f5, f6, f7, Cond.ofCode_code, Dest.ofCode_code, Xop.ofCode_code]

theorem RoundTrip.macMulRnd (z : Dest) (y : Yop) (x : Xop) (c : Cond) : RoundTrip.Statement (.macMulRnd z y x c) := by
  intro hwf
  refine decode_encode_of _ rfl fun w hw => ?_
  obtain ⟨r1, r2, f1, f2, f3, f4, f5, f6, f7, f8, f9, f10, hb⟩ := word_type9 (z := z.code) (amf := 1) (y := y.code)
      (x := x.code) (l := 0) (c := c.code) (hw.trans (by
    show 0x202000 + z.code * 262144 + y.code * 2048 + x.code * 256 + c.code = _
    omega)) z.code_lt (by decide) y.code_lt x.code_lt (by decide) c.code_lt
  refine ⟨hb, ?_⟩
  rw [decodeNat_type9 _ r1 r2]
  simp [decodeType9, decodeMacReg, f1, f2, f4, f5, f6, f7, Cond.ofCode_code, Dest.ofCode_code, Xop.ofCode_code,
      Yop.ofCode_code]

theorem RoundTrip.macAddSqRnd (z : Dest) (x : Xop) (c : Cond) : RoundTrip.Statement (.macAddSqRnd z x c) := by
  intro hwf
  refine decode_encode_of _ rfl fun w hw => ?_
  obtain ⟨r1, r2, f1, f2, f3, f4, f5, f6, f7, f8, f9, f10, hb⟩ := word_type9 (z := z.code) (amf := 2) (y := 0) (x
      := x.code) (l := 1) (c := c.code) (hw.trans (by
    show 0x204010 + z.code * 262144 + x.code * 256 + c.code = _
    omega)) z.code_lt (by decide) (by decide) x.code_lt (by decide) c.code_lt
  refine ⟨hb, ?_⟩
  rw [decodeNat_type9 _ r1 r2]
  simp [decodeType9, decodeMacSquare, f1, f2, f4, f5, f6, f7, Cond.ofCode_code, Dest.ofCode_code, Xop.ofCode_code]

theorem RoundTrip.macRnd (z : Dest) (x : Xop) (c : Cond) : RoundTrip.Statement (.macRnd z x c) := by
  intro hwf
  refine decode_encode_of _ rfl fun w hw => ?_
  obtain ⟨r1, r2, f1, f2, f3, f4, f5, f6, f7, f8, f9, f10, hb⟩ := word_type9 (z := z.code) (amf := 2) (y := 3) (x
      := x.code) (l := 0) (c := c.code) (hw.trans (by
    show 0x205800 + z.code * 262144 + x.code * 256 + c.code = _
    omega)) z.code_lt (by decide) (by decide) x.code_lt (by decide) c.code_lt
  refine ⟨hb, ?_⟩
  rw [decodeNat_type9 _ r1 r2]
  simp [decodeType9, decodeMacReg, f1, f2, f4, f5, f6, f7, Cond.ofCode_code, Dest.ofCode_code, Xop.ofCode_code,
      YReg.ofCode_three]

theorem RoundTrip.macAddRnd (z : Dest) (y : YReg) (x : Xop) (c : Cond) : RoundTrip.Statement (.macAddRnd z y x c)
    := by
  intro hwf
  refine decode_encode_of _ rfl fun w hw => ?_
  obtain ⟨r1, r2, f1, f2, f3, f4, f5, f6, f7, f8, f9, f10, hb⟩ := word_type9 (z := z.code) (amf := 2) (y := y.code)
      (x := x.code) (l := 0) (c := c.code) (hw.trans (by
    show 0x204000 + z.code * 262144 + y.code * 2048 + x.code * 256 + c.code = _
    omega)) z.code_lt (by decide) (Nat.lt_succ_of_lt y.code_lt) x.code_lt (by decide) c.code_lt
  refine ⟨hb, ?_⟩
  rw [decodeNat_type9 _ r1 r2]
  simp [decodeType9, decodeMacReg, f1, f2, f4, f5, f6, f7, Cond.ofCode_code, Dest.ofCode_code, Xop.ofCode_code,
      YReg.ofCode_code]

theorem RoundTrip.macSubSqRnd (z : Dest) (x : Xop) (c : Cond) : RoundTrip.Statement (.macSubSqRnd z x c) := by
  intro hwf
  refine decode_encode_of _ rfl fun w hw => ?_
  obtain ⟨r1, r2, f1, f2, f3, f4, f5, f6, f7, f8, f9, f10, hb⟩ := word_type9 (z := z.code) (amf := 3) (y := 0) (x
      := x.code) (l := 1) (c := c.code) (hw.trans (by
    show 0x206010 + z.code * 262144 + x.code * 256 + c.code = _
    omega)) z.code_lt (by decide) (by decide) x.code_lt (by decide) c.code_lt
  refine ⟨hb, ?_⟩
  rw [decodeNat_type9 _ r1 r2]
  simp [decodeType9, decodeMacSquare, f1, f2, f4, f5, f6, f7, Cond.ofCode_code, Dest.ofCode_code, Xop.ofCode_code]

theorem RoundTrip.macSubRnd (z : Dest) (y : Yop) (x : Xop) (c : Cond) : RoundTrip.Statement (.macSubRnd z y x c) := by
  intro hwf
  refine decode_encode_of _ rfl fun w hw => ?_
  obtain ⟨r1, r2, f1, f2, f3, f4, f5, f6, f7, f8, f9, f10, hb⟩ := word_type9 (z := z.code) (amf := 3) (y := y.code)
      (x := x.code) (l := 0) (c := c.code) (hw.trans (by
    show 0x206000 + z.code * 262144 + y.code * 2048 + x.code * 256 + c.code = _
    omega)) z.code_lt (by decide) y.code_lt x.code_lt (by decide) c.code_lt
  refine ⟨hb, ?_⟩
  rw [decodeNat_type9 _ r1 r2]
  simp [decodeType9, decodeMacReg, f1, f2, f4, f5, f6, f7, Cond.ofCode_code, Dest.ofCode_code, Xop.ofCode_code,
      Yop.ofCode_code]

theorem RoundTrip.macSqSS (z : Dest) (x : Xop) (c : Cond) : RoundTrip.Statement (.macSqSS z x c) := by
  intro hwf
  refine decode_encode_of _ rfl fun w hw => ?_
  obtain ⟨r1, r2, f1, f2, f3, f4, f5, f6, f7, f8, f9, f10, hb⟩ := word_type9 (z := z.code) (amf := 4) (y := 0) (x
      := x.code) (l := 1) (c := c.code) (hw.trans (by
    show 0x208010 + z.code * 262144 + x.code * 256 + c.code = _
    omega)) z.code_lt (by decide) (by decide) x.code_lt (by decide) c.code_lt
  refine ⟨hb, ?_⟩
  rw [decodeNat_type9 _ r1 r2]
  simp [decodeType9, decodeMacSquare, f1, f2, f4, f5, f6, f7, Cond.ofCode_code, Dest.ofCode_code, Xop.ofCode_code]

theorem RoundTrip.macZero (z : Dest) (x : Xop) (c : Cond) : RoundTrip.Statement (.macZero z x c) := by
  intro hwf
  refine decode_encode_of _ rfl fun w hw => ?_
  obtain ⟨r1, r2, f1, f2, f3, f4, f5, f6, f7, f8, f9, f10, hb⟩ := word_type9 (z := z.code) (amf := 4) (y := 3) (x
      := x.code) (l := 0) (c := c.code) (hw.trans (by
    show 0x209800 + z.code * 262144 + x.code * 256 + c.code = _
    omega)) z.code_lt (by decide) (by decide) x.code_lt (by decide) c.code_lt
  refine ⟨hb, ?_⟩
  rw [decodeNat_type9 _ r1 r2]
  simp [decodeType9, decodeMacReg, f1, f2, f4, f5, f6, f7, Cond.ofCode_code, Dest.ofCode_code, Xop.ofCode_code,
      YReg.ofCode_three]

theorem RoundTrip.macMulSS (z : Dest) (y : YReg) (x : Xop) (c : Cond) : RoundTrip.Statement (.macMulSS z y x c) := by
  intro hwf
  refine decode_encode_of _ rfl fun w hw => ?_
  obtain ⟨r1, r2, f1, f2, f3, f4, f5, f6, f7, f8, f9, f10, hb⟩ := word_type9 (z := z.code) (amf := 4) (y := y.code)
      (x := x.code) (l := 0) (c := c.code) (hw.trans (by
    show 0x208000 + z.code * 262144 + y.code * 2048 + x.code * 256 + c.code = _
    omega)) z.code_lt (by decide) (Nat.lt_succ_of_lt y.code_lt) x.code_lt (by decide) c.code_lt
  refine ⟨hb, ?_⟩
  rw [decodeNat_type9 _ r1 r2]
  simp [decodeType9, decodeMacReg, f1, f2, f4, f5, f6, f7, Cond.ofCode_code, Dest.ofCode_code, Xop.ofCode_code,
      YReg.ofCode_code]

theorem RoundTrip.macMulSU (z : Dest) (y : Yop) (x : Xop) (c : Cond) : RoundTrip.Statement (.macMulSU z y x c) := by
  intro hwf
  refine decode_encode_of _ rfl fun w hw => ?_
  obtain ⟨r1, r2, f1, f2, f3, f4, f5, f6, f7, f8, f9, f10, hb⟩ := word_type9 (z := z.code) (amf := 5) (y := y.code)
      (x := x.code) (l := 0) (c := c.code) (hw.trans (by
    show 0x20A000 + z.code * 262144 + y.code * 2048 + x.code * 256 + c.code = _
    omega)) z.code_lt (by decide) y.code_lt x.code_lt (by decide) c.code_lt
  refine ⟨hb, ?_⟩
  rw [decodeNat_type9 _ r1 r2]
  simp [decodeType9, decodeMacReg, f1, f2, f4, f5, f6, f7, Cond.ofCode_code, Dest.ofCode_code, Xop.ofCode_code,
      Yop.ofCode_code]

theorem RoundTrip.macMulUS (z : Dest) (y : Yop) (x : Xop) (c : Cond) : RoundTrip.Statement (.macMulUS z y x c) := by
  intro hwf
  refine decode_encode_of _ rfl fun w hw => ?_
  obtain ⟨r1, r2, f1, f2, f3, f4, f5, f6, f7, f8, f9, f10, hb⟩ := word_type9 (z := z.code) (amf := 6) (y := y.code)
      (x := x.code) (l := 0) (c := c.code) (hw.trans (by
    show 0x20C000 + z.code * 262144 + y.code * 2048 + x.code * 256 + c.code = _
    omega)) z.code_lt (by decide) y.code_lt x.code_lt (by decide) c.code_lt
  refine ⟨hb, ?_⟩
  rw [decodeNat_type9 _ r1 r2]
  simp [decodeType9, decodeMacReg, f1, f2, f4, f5, f6, f7, Cond.ofCode_code, Dest.ofCode_code, Xop.ofCode_code,
      Yop.ofCode_code]

theorem RoundTrip.macSqUU (z : Dest) (x : Xop) (c : Cond) : RoundTrip.Statement (.macSqUU z x c) := by
  intro hwf
  refine decode_encode_of _ rfl fun w hw => ?_
  obtain ⟨r1, r2, f1, f2, f3, f4, f5, f6, f7, f8, f9, f10, hb⟩ := word_type9 (z := z.code) (amf := 7) (y := 0) (x
      := x.code) (l := 1) (c := c.code) (hw.trans (by
    show 0x20E010 + z.code * 262144 + x.code * 256 + c.code = _
    omega)) z.code_lt (by decide) (by decide) x.code_lt (by decide) c.code_lt
  refine ⟨hb, ?_⟩
  rw [decodeNat_type9 _ r1 r2]
  simp [decodeType9, decodeMacSquare, f1, f2, f4, f5, f6, f7, Cond.ofCode_code, Dest.ofCode_code, Xop.ofCode_code]

theorem RoundTrip.macMulUU (z : Dest) (y : Yop) (x : Xop) (c : Cond) : RoundTrip.Statement (.macMulUU z y x c) := by
  intro hwf
  refine decode_encode_of _ rfl fun w hw => ?_
  obtain ⟨r1, r2, f1, f2, f3, f4, f5, f6, f7, f8, f9, f10, hb⟩ := word_type9 (z := z.code) (amf := 7) (y := y.code)
      (x := x.code) (l := 0) (c := c.code) (hw.trans (by
    show 0x20E000 + z.code * 262144 + y.code * 2048 + x.code * 256 + c.code = _
    omega)) z.code_lt (by decide) y.code_lt x.code_lt (by decide) c.code_lt
  refine ⟨hb, ?_⟩
  rw [decodeNat_type9 _ r1 r2]
  simp [decodeType9, decodeMacReg, f1, f2, f4, f5, f6, f7, Cond.ofCode_code, Dest.ofCode_code, Xop.ofCode_code,
      Yop.ofCode_code]

theorem RoundTrip.macAddSqSS (z : Dest) (x : Xop) (c : Cond) : RoundTrip.Statement (.macAddSqSS z x c) := by
  intro hwf
  refine decode_encode_of _ rfl fun w hw => ?_
  obtain ⟨r1, r2, f1, f2, f3, f4, f5, f6, f7, f8, f9, f10, hb⟩ := word_type9 (z := z.code) (amf := 8) (y := 0) (x
      := x.code) (l := 1) (c := c.code) (hw.trans (by
    show 0x210010 + z.code * 262144 + x.code * 256 + c.code = _
    omega)) z.code_lt (by decide) (by decide) x.code_lt (by decide) c.code_lt
  refine ⟨hb, ?_⟩
  rw [decodeNat_type9 _ r1 r2]
  simp [decodeType9, decodeMacSquare, f1, f2, f4, f5, f6, f7, Cond.ofCode_code, Dest.ofCode_code, Xop.ofCode_code]

theorem RoundTrip.macCopy (z : Dest) (x : Xop) (c : Cond) : RoundTrip.Statement (.macCopy z x c) := by
  intro hwf
  refine decode_encode_of _ rfl fun w hw => ?_
  obtain ⟨r1, r2, f1, f2, f3, f4, f5, f6, f7, f8, f9, f10, hb⟩ := word_type9 (z := z.code) (amf := 8) (y := 3) (x
      := x.code) (l := 0) (c := c.code) (hw.trans (by
    show 0x211800 + z.code * 262144 + x.code * 256 + c.code = _
    omega)) z.code_lt (by decide) (by decide) x.code_lt (by decide) c.code_lt
  refine ⟨hb, ?_⟩
  rw [decodeNat_type9 _ r1 r2]
  simp [decodeType9, decodeMacReg, f1, f2, f4, f5, f6, f7, Cond.ofCode_code, Dest.ofCode_code, Xop.ofCode_code,
      YReg.ofCode_three]

theorem RoundTrip.macAddSS (z : Dest) (y : YReg) (x : Xop) (c : Cond) : RoundTrip.Statement (.macAddSS z y x c) := by
  intro hwf
  refine decode_encode_of _ rfl fun w hw => ?_
  obtain ⟨r1, r2, f1, f2, f3, f4, f5, f6, f7, f8, f9, f10, hb⟩ := word_type9 (z := z.code) (amf := 8) (y := y.code)
      (x := x.code) (l := 0) (c := c.code) (hw.trans (by
    show 0x210000 + z.code * 262144 + y.code * 2048 + x.code * 256 + c.code = _
    omega)) z.code_lt (by decide) (Nat.lt_succ_of_lt y.code_lt) x.code_lt (by decide) c.code_lt
  refine ⟨hb, ?_⟩
  rw [decodeNat_type9 _ r1 r2]
  simp [decodeType9, decodeMacReg, f1, f2, f4, f5, f6, f7, Cond.ofCode_code, Dest.ofCode_code, Xop.ofCode_code,
      YReg.ofCode_code]

theorem RoundTrip.macAddSU (z : Dest) (y : Yop) (x : Xop) (c : Cond) : RoundTrip.Statement (.macAddSU z y x c) := by
  intro hwf
  refine decode_encode_of _ rfl fun w hw => ?_
  obtain ⟨r1, r2, f1, f2, f3, f4, f5, f6, f7, f8, f9, f10, hb⟩ := word_type9 (z := z.code) (amf := 9) (y := y.code)
      (x := x.code) (l := 0) (c := c.code) (hw.trans (by
    show 0x212000 + z.code * 262144 + y.code * 2048 + x.code * 256 + c.code = _
    omega)) z.code_lt (by decide) y.code_lt x.code_lt (by decide) c.code_lt
  refine ⟨hb, ?_⟩
  rw [decodeNat_type9 _ r1 r2]
  simp [decodeType9, decodeMacReg, f1, f2, f4, f5, f6, f7, Cond.ofCode_code, Dest.ofCode_code, Xop.ofCode_code,
      Yop.ofCode_code]

theorem RoundTrip.macAddUS (z : Dest) (y : Yop) (x : Xop) (c : Cond) : RoundTrip.Statement (.macAddUS z y x c) := by
  intro hwf
  refine decode_encode_of _ rfl fun w hw => ?_
  obtain ⟨r1, r2, f1, f2, f3, f4, f5, f6, f7, f8, f9, f10, hb⟩ := word_type9 (z := z.code) (amf := 10) (y :=
      y.code) (x := x.code) (l := 0) (c := c.code) (hw.trans (by
    show 0x214000 + z.code * 262144 + y.code * 2048 + x.code * 256 + c.code = _
    omega)) z.code_lt (by decide) y.code_lt x.code_lt (by decide) c.code_lt
  refine ⟨hb, ?_⟩
  rw [decodeNat_type9 _ r1 r2]
  simp [decodeType9, decodeMacReg, f1, f2, f4, f5, f6, f7, Cond.ofCode_code, Dest.ofCode_code, Xop.ofCode_code,
      Yop.ofCode_code]

theorem RoundTrip.macAddSqUU (z : Dest) (x : Xop) (c : Cond) : RoundTrip.Statement (.macAddSqUU z x c) := by
  intro hwf
  refine decode_encode_of _ rfl fun w hw => ?_
  obtain ⟨r1, r2, f1, f2, f3, f4, f5, f6, f7, f8, f9, f10, hb⟩ := word_type9 (z := z.code) (amf := 11) (y := 0) (x
      := x.code) (l := 1) (c := c.code) (hw.trans (by
    show 0x216010 + z.code * 262144 + x.code * 256 + c.code = _
    omega)) z.code_lt (by decide) (by decide) x.code_lt (by decide) c.code_lt
  refine ⟨hb, ?_⟩
  rw [decodeNat_type9 _ r1 r2]
  simp [decodeType9, decodeMacSquare, f1, f2, f4, f5, f6, f7, Cond.ofCode_code, Dest.ofCode_code, Xop.ofCode_code]

theorem RoundTrip.macAddUU (z : Dest) (y : Yop) (x : Xop) (c : Cond) : RoundTrip.Statement (.macAddUU z y x c) := by
  intro hwf
  refine decode_encode_of _ rfl fun w hw => ?_
  obtain ⟨r1, r2, f1, f2, f3, f4, f5, f6, f7, f8, f9, f10, hb⟩ := word_type9 (z := z.code) (amf := 11) (y :=
      y.code) (x := x.code) (l := 0) (c := c.code) (hw.trans (by
    show 0x216000 + z.code * 262144 + y.code * 2048 + x.code * 256 + c.code = _
    omega)) z.code_lt (by decide) y.code_lt x.code_lt (by decide) c.code_lt
  refine ⟨hb, ?_⟩
  rw [decodeNat_type9 _ r1 r2]
  simp [decodeType9, decodeMacReg, f1, f2, f4, f5, f6, f7, Cond.ofCode_code, Dest.ofCode_code, Xop.ofCode_code,
      Yop.ofCode_code]

theorem RoundTrip.macSubSqSS (z : Dest) (x : Xop) (c : Cond) : RoundTrip.Statement (.macSubSqSS z x c) := by
  intro hwf
  refine decode_encode_of _ rfl fun w hw => ?_
  obtain ⟨r1, r2, f1, f2, f3, f4, f5, f6, f7, f8, f9, f10, hb⟩ := word_type9 (z := z.code) (amf := 12) (y := 0) (x
      := x.code) (l := 1) (c := c.code) (hw.trans (by
    show 0x218010 + z.code * 262144 + x.code * 256 + c.code = _
    omega)) z.code_lt (by decide) (by decide) x.code_lt (by decide) c.code_lt
  refine ⟨hb, ?_⟩
  rw [decodeNat_type9 _ r1 r2]
  simp [decodeType9, decodeMacSquare, f1, f2, f4, f5, f6, f7, Cond.ofCode_code, Dest.ofCode_code, Xop.ofCode_code]

theorem RoundTrip.macSubSS (z : Dest) (y : Yop) (x : Xop) (c : Cond) : RoundTrip.Statement (.macSubSS z y x c) := by
  intro hwf
  refine decode_encode_of _ rfl fun w hw => ?_
  obtain ⟨r1, r2, f1, f2, f3, f4, f5, f6, f7, f8, f9, f10, hb⟩ := word_type9 (z := z.code) (amf := 12) (y :=
      y.code) (x := x.code) (l := 0) (c := c.code) (hw.trans (by
    show 0x218000 + z.code * 262144 + y.code * 2048 + x.code * 256 + c.code = _
    omega)) z.code_lt (by decide) y.code_lt x.code_lt (by decide) c.code_lt
  refine ⟨hb, ?_⟩
  rw [decodeNat_type9 _ r1 r2]
  simp [decodeType9, decodeMacReg, f1, f2, f4, f5, f6, f7, Cond.ofCode_code, Dest.ofCode_code, Xop.ofCode_code,
      Yop.ofCode_code]

theorem RoundTrip.macSubSU (z : Dest) (y : Yop) (x : Xop) (c : Cond) : RoundTrip.Statement (.macSubSU z y x c) := by
  intro hwf
  refine decode_encode_of _ rfl fun w hw => ?_
  obtain ⟨r1, r2, f1, f2, f3, f4, f5, f6, f7, f8, f9, f10, hb⟩ := word_type9 (z := z.code) (amf := 13) (y :=
      y.code) (x := x.code) (l := 0) (c := c.code) (hw.trans (by
    show 0x21A000 + z.code * 262144 + y.code * 2048 + x.code * 256 + c.code = _
    omega)) z.code_lt (by decide) y.code_lt x.code_lt (by decide) c.code_lt
  refine ⟨hb, ?_⟩
  rw [decodeNat_type9 _ r1 r2]
  simp [decodeType9, decodeMacReg, f1, f2, f4, f5, f6, f7, Cond.ofCode_code, Dest.ofCode_code, Xop.ofCode_code,
      Yop.ofCode_code]

theorem RoundTrip.macSubUS (z : Dest) (y : Yop) (x : Xop) (c : Cond) : RoundTrip.Statement (.macSubUS z y x c) := by
  intro hwf
  refine decode_encode_of _ rfl fun w hw => ?_
  obtain ⟨r1, r2, f1, f2, f3, f4, f5, f6, f7, f8, f9, f10, hb⟩ := word_type9 (z := z.code) (amf := 14) (y :=
      y.code) (x := x.code) (l := 0) (c := c.code) (hw.trans (by
    show 0x21C000 + z.code * 262144 + y.code * 2048 + x.code * 256 + c.code = _
    omega)) z.code_lt (by decide) y.code_lt x.code_lt (by decide) c.code_lt
  refine ⟨hb, ?_⟩
  rw [decodeNat_type9 _ r1 r2]
  simp [decodeType9, decodeMacReg, f1, f2, f4, f5, f6, f7, Cond.ofCode_code, Dest.ofCode_code, Xop.ofCode_code,
      Yop.ofCode_code]

theorem RoundTrip.macSubSqUU (z : Dest) (x : Xop) (c : Cond) : RoundTrip.Statement (.macSubSqUU z x c) := by
  intro hwf
  refine decode_encode_of _ rfl fun w hw => ?_
  obtain ⟨r1, r2, f1, f2, f3, f4, f5, f6, f7, f8, f9, f10, hb⟩ := word_type9 (z := z.code) (amf := 15) (y := 0) (x
      := x.code) (l := 1) (c := c.code) (hw.trans (by
    show 0x21E010 + z.code * 262144 + x.code * 256 + c.code = _
    omega)) z.code_lt (by decide) (by decide) x.code_lt (by decide) c.code_lt
  refine ⟨hb, ?_⟩
  rw [decodeNat_type9 _ r1 r2]
  simp [decodeType9, decodeMacSquare, f1, f2, f4, f5, f6, f7, Cond.ofCode_code, Dest.ofCode_code, Xop.ofCode_code]

theorem RoundTrip.macSubUU (z : Dest) (y : Yop) (x : Xop) (c : Cond) : RoundTrip.Statement (.macSubUU z y x c) := by
  intro hwf
  refine decode_encode_of _ rfl fun w hw => ?_
  obtain ⟨r1, r2, f1, f2, f3, f4, f5, f6, f7, f8, f9, f10, hb⟩ := word_type9 (z := z.code) (amf := 15) (y :=
      y.code) (x := x.code) (l := 0) (c := c.code) (hw.trans (by
    show 0x21E000 + z.code * 262144 + y.code * 2048 + x.code * 256 + c.code = _
    omega)) z.code_lt (by decide) y.code_lt x.code_lt (by decide) c.code_lt
  refine ⟨hb, ?_⟩
  rw [decodeNat_type9 _ r1 r2]
  simp [decodeType9, decodeMacReg, f1, f2, f4, f5, f6, f7, Cond.ofCode_code, Dest.ofCode_code, Xop.ofCode_code,
      Yop.ofCode_code]

theorem RoundTrip.condNop (c : Cond) : RoundTrip.Statement (.condNop c) := by
  intro hwf
  refine decode_encode_of _ rfl fun w hw => ?_
  obtain ⟨r1, r2, f1, f2, f3, f4, f5, f6, f7, f8, f9, f10, hb⟩ := word_type9 (z := 0) (amf := 0) (y := 0) (x := 0)
      (l := 0) (c := c.code) (hw.trans (by
    show 0x200000 + c.code = _
    omega)) (by decide) (by decide) (by decide) (by decide) (by decide) c.code_lt
  refine ⟨hb, ?_⟩
  rw [decodeNat_type9 _ r1 r2]
  simp [decodeType9, f1, f2, f6, f7, f8, Cond.ofCode_code]

theorem RoundTrip.aluNone (fn : AluFn) (y : Yop) (x : Xop) : RoundTrip.Statement (.aluNone fn y x) := by
  intro hwf
  have hf := fn.code_lt
  refine decode_encode_of _ rfl fun w hw => ?_
  obtain ⟨r1, r2, f1, f2, f3, f4, f5, f6, f7, f8, f9, hb⟩ := word_type8 (z := 0) (amf := 16 + fn.code) (y :=
      y.code) (x := x.code) (dd := 10) (sd := 10) (hw.trans (by
    show 0x2A00AA + fn.code * 8192 + y.code * 2048 + x.code * 256 = _
    omega)) (by decide) (by omega) y.code_lt x.code_lt (by decide) (by decide)
  refine ⟨hb, ?_⟩
  rw [decodeNat_type8 _ r1 r2]
  have h1 : (16 + fn.code) % 16 = fn.code := by omega
  simp [decodeType8, f1, f2, f4, f5, f6, f9, h1, AluFn.ofCode_code, Xop.ofCode_code, Yop.ofCode_code]

theorem RoundTrip.moveDreg (dd : Dreg) (sd : Dreg) : RoundTrip.Statement (.moveDreg dd sd) := by
  intro hwf
  refine decode_encode_of _ rfl fun w hw => ?_
  obtain ⟨r1, r2, f1, f2, f3, f4, f5, f6, f7, f8, f9, hb⟩ := word_type8 (z := 0) (amf := 0) (y := 0) (x := 0) (dd
      := dd.code) (sd := sd.code) (hw.trans (by
    show 0x280000 + dd.code * 16 + sd.code = _
    omega)) (by decide) (by decide) (by decide) (by decide) dd.code_lt sd.code_lt
  refine ⟨hb, ?_⟩
  rw [decodeNat_type8 _ r1 r2]
  simp [decodeType8, f1, f3, f6, f7, f8, Dreg.ofCode_code, MacFn.ofCode_zero]

theorem RoundTrip.aluMove (z : Dest) (fn : AluFn) (y : Yop) (x : Xop) (dd : Dreg) (sd : Dreg) : RoundTrip.Statement
    (.aluMove z fn y x dd sd) := by
  intro hwf
  have hf := fn.code_lt
  refine decode_encode_of _ rfl fun w hw => ?_
  obtain ⟨r1, r2, f1, f2, f3, f4, f5, f6, f7, f8, f9, hb⟩ := word_type8 (z := z.code) (amf := 16 + fn.code) (y :=
      y.code) (x := x.code) (dd := dd.code) (sd := sd.code) (hw.trans (by
    show 0x2A0000 + z.code * 262144 + fn.code * 8192 + y.code * 2048 + x.code * 256 + dd.code * 16 + sd.code = _
    omega)) z.code_lt (by omega) y.code_lt x.code_lt dd.code_lt sd.code_lt
  refine ⟨hb, ?_⟩
  rw [decodeNat_type8 _ r1 r2]
  have h1 : (16 + fn.code) % 16 = fn.code := by omega
  have h2 : ¬(z.code = 0 ∧ dd.code * 16 + sd.code = 170) := by
    rintro ⟨h3, h4⟩
    have hz := z.ofCode_code
    have hd := dd.ofCode_code
    have hs := sd.ofCode_code
    rw [h3] at hz
    rw [show dd.code = 10 by have := dd.code_lt; have := sd.code_lt; omega] at hd
    rw [show sd.code = 10 by have := dd.code_lt; have := sd.code_lt; omega] at hs
    subst hz hd hs
    exact absurd hwf (by simp [Dest.ofCode, Dreg.ofCode, Instr.wellFormed])
  simp [decodeType8, f1, f2, f3, f4, f5, f6, f7, f9, h1, h2, AluFn.ofCode_code, Dest.ofCode_code, Dreg.ofCode_code,
      Xop.ofCode_code, Yop.ofCode_code]

theorem RoundTrip.macMove (z : Dest) (fn : MacFn) (y : Yop) (x : Xop) (dd : Dreg) (sd : Dreg) : RoundTrip.Statement
    (.macMove z fn y x dd sd) := by
  intro hwf
  have hf := fn.code_lt
  have hp := fn.code_pos
  refine decode_encode_of _ rfl fun w hw => ?_
  obtain ⟨r1, r2, f1, f2, f3, f4, f5, f6, f7, f8, f9, hb⟩ := word_type8 (z := z.code) (amf := fn.code) (y :=
      y.code) (x := x.code) (dd := dd.code) (sd := sd.code) (hw.trans (by
    show 0x280000 + z.code * 262144 + fn.code * 8192 + y.code * 2048 + x.code * 256 + dd.code * 16 + sd.code = _
    omega)) z.code_lt (by omega) y.code_lt x.code_lt dd.code_lt sd.code_lt
  refine ⟨hb, ?_⟩
  rw [decodeNat_type8 _ r1 r2]
  have h1 : ¬16 ≤ fn.code := by omega
  simp [decodeType8, f1, f3, f4, f5, f6, f7, Dest.ofCode_code, Dreg.ofCode_code, MacFn.ofCode_code,
      Xop.ofCode_code, Yop.ofCode_code, h1]

theorem RoundTrip.dualRead (pd : PmDst) (dd : DmDst) (pi : BitVec 2) (pm : BitVec 2) (di : BitVec 2) (dm : BitVec
    2) : RoundTrip.Statement (.dualRead pd dd pi pm di dm) := by
  intro hwf
  refine decode_encode_of _ rfl fun w hw => ?_
  obtain ⟨r1, f1, f2, f3, f4, f5, f6, f7, f8, hb⟩ := word_type1 (pd := pd.code) (dd := dd.code) (cp := 0) (pi :=
      pi.toNat) (pm := pm.toNat) (di := di.toNat) (dm := dm.toNat) (hw.trans (by
    show 0xC00000 + pd.code * 1048576 + dd.code * 262144 + pi.toNat * 64 + pm.toNat * 16 + di.toNat * 4 + dm.toNat = _
    omega)) pd.code_lt dd.code_lt (by decide) pi.isLt pm.isLt di.isLt dm.isLt
  refine ⟨hb, ?_⟩
  rw [decodeNat_type1 _ r1]
  simp [decodeType1, f1, f2, f3, f4, f5, f6, f7, f8, DmDst.ofCode_code, PmDst.ofCode_code, Comp.ofCode_zero]

theorem RoundTrip.compDualRead (pd : PmDst) (dd : DmDst) (cp : Comp) (pi : BitVec 2) (pm : BitVec 2) (di : BitVec
    2) (dm : BitVec 2) : RoundTrip.Statement (.compDualRead pd dd cp pi pm di dm) := by
  intro hwf
  refine decode_encode_of _ rfl fun w hw => ?_
  obtain ⟨r1, f1, f2, f3, f4, f5, f6, f7, f8, hb⟩ := word_type1 (pd := pd.code) (dd := dd.code) (cp := cp.code) (pi
      := pi.toNat) (pm := pm.toNat) (di := di.toNat) (dm := dm.toNat) (hw.trans (by
    show 0xC00000 + pd.code * 1048576 + dd.code * 262144 + cp.code * 256 + pi.toNat * 64 + pm.toNat * 16 + di.toNat
        * 4 + dm.toNat = _
    omega)) pd.code_lt dd.code_lt cp.code_lt pi.isLt pm.isLt di.isLt dm.isLt
  refine ⟨hb, ?_⟩
  rw [decodeNat_type1 _ r1]
  simp [decodeType1, f1, f2, f3, f5, f6, f7, f8, Comp.ofCode_code, DmDst.ofCode_code, PmDst.ofCode_code]

theorem RoundTrip.loadDm (g : Bool) (d : Dreg) (i : BitVec 2) (m : BitVec 2) : RoundTrip.Statement (.loadDm g d i
    m) := by
  intro hwf
  refine decode_encode_of _ rfl fun w hw => ?_
  obtain ⟨r1, r2, f1, f2, f3, f4, f5, f6, f7, f8, hb⟩ := word_type4 (g := boolCode g) (st := 0) (z := 0) (cp := 0)
      (d := d.code) (i := i.toNat) (m := m.toNat) (hw.trans (by
    show 0x600000 + boolCode g * 1048576 + d.code * 16 + i.toNat * 4 + m.toNat = _
    omega)) (boolCode_lt g) (by decide) (by decide) (by decide) d.code_lt i.isLt m.isLt
  refine ⟨hb, ?_⟩
  rw [decodeNat_type4 _ r1 r2]
  simp [decodeType4, f1, f2, f3, f4, f5, f6, f7, f8, Dreg.ofCode_code, boolCode_beq, Comp.ofCode_zero]

theorem RoundTrip.compLoadDm (g : Bool) (z : Dest) (cp : Comp) (d : Dreg) (i : BitVec 2) (m : BitVec 2) :
    RoundTrip.Statement (.compLoadDm g z cp d i m) := by
  intro hwf
  refine decode_encode_of _ rfl fun w hw => ?_
  obtain ⟨r1, r2, f1, f2, f3, f4, f5, f6, f7, f8, hb⟩ := word_type4 (g := boolCode g) (st := 0) (z := z.code) (cp
      := cp.code) (d := d.code) (i := i.toNat) (m := m.toNat) (hw.trans (by
    show 0x600000 + boolCode g * 1048576 + z.code * 262144 + cp.code * 256 + d.code * 16 + i.toNat * 4 + m.toNat = _
    omega)) (boolCode_lt g) (by decide) z.code_lt cp.code_lt d.code_lt i.isLt m.isLt
  refine ⟨hb, ?_⟩
  rw [decodeNat_type4 _ r1 r2]
  simp [decodeType4, f1, f2, f3, f4, f6, f7, f8, Comp.ofCode_code, Dest.ofCode_code, Dreg.ofCode_code, boolCode_beq]

theorem RoundTrip.storeDm (g : Bool) (d : Dreg) (i : BitVec 2) (m : BitVec 2) : RoundTrip.Statement (.storeDm g d i
    m) := by
  intro hwf
  refine decode_encode_of _ rfl fun w hw => ?_
  obtain ⟨r1, r2, f1, f2, f3, f4, f5, f6, f7, f8, hb⟩ := word_type4 (g := boolCode g) (st := 1) (z := 0) (cp := 0)
      (d := d.code) (i := i.toNat) (m := m.toNat) (hw.trans (by
    show 0x680000 + boolCode g * 1048576 + d.code * 16 + i.toNat * 4 + m.toNat = _
    omega)) (boolCode_lt g) (by decide) (by decide) (by decide) d.code_lt i.isLt m.isLt
  refine ⟨hb, ?_⟩
  rw [decodeNat_type4 _ r1 r2]
  simp [decodeType4, f1, f2, f3, f4, f5, f6, f7, f8, Dreg.ofCode_code, boolCode_beq, Comp.ofCode_zero]

theorem RoundTrip.compStoreDm (g : Bool) (z : Dest) (cp : Comp) (d : Dreg) (i : BitVec 2) (m : BitVec 2) :
    RoundTrip.Statement (.compStoreDm g z cp d i m) := by
  intro hwf
  refine decode_encode_of _ rfl fun w hw => ?_
  obtain ⟨r1, r2, f1, f2, f3, f4, f5, f6, f7, f8, hb⟩ := word_type4 (g := boolCode g) (st := 1) (z := z.code) (cp
      := cp.code) (d := d.code) (i := i.toNat) (m := m.toNat) (hw.trans (by
    show 0x680000 + boolCode g * 1048576 + z.code * 262144 + cp.code * 256 + d.code * 16 + i.toNat * 4 + m.toNat = _
    omega)) (boolCode_lt g) (by decide) z.code_lt cp.code_lt d.code_lt i.isLt m.isLt
  refine ⟨hb, ?_⟩
  rw [decodeNat_type4 _ r1 r2]
  simp [decodeType4, f1, f2, f3, f4, f6, f7, f8, Comp.ofCode_code, Dest.ofCode_code, Dreg.ofCode_code, boolCode_beq]

theorem RoundTrip.loadPm (d : Dreg) (i : BitVec 2) (m : BitVec 2) : RoundTrip.Statement (.loadPm d i m) := by
  intro hwf
  refine decode_encode_of _ rfl fun w hw => ?_
  obtain ⟨r1, r2, f1, f2, f3, f4, f5, f6, f7, hb⟩ := word_type5 (st := 0) (z := 0) (cp := 0) (d := d.code) (i :=
      i.toNat) (m := m.toNat) (hw.trans (by
    show 0x500000 + d.code * 16 + i.toNat * 4 + m.toNat = _
    omega)) (by decide) (by decide) (by decide) d.code_lt i.isLt m.isLt
  refine ⟨hb, ?_⟩
  rw [decodeNat_type5 _ r1 r2]
  simp [decodeType5, f1, f2, f3, f4, f5, f6, f7, Dreg.ofCode_code, Comp.ofCode_zero]

theorem RoundTrip.compLoadPm (z : Dest) (cp : Comp) (d : Dreg) (i : BitVec 2) (m : BitVec 2) : RoundTrip.Statement
    (.compLoadPm z cp d i m) := by
  intro hwf
  refine decode_encode_of _ rfl fun w hw => ?_
  obtain ⟨r1, r2, f1, f2, f3, f4, f5, f6, f7, hb⟩ := word_type5 (st := 0) (z := z.code) (cp := cp.code) (d :=
      d.code) (i := i.toNat) (m := m.toNat) (hw.trans (by
    show 0x500000 + z.code * 262144 + cp.code * 256 + d.code * 16 + i.toNat * 4 + m.toNat = _
    omega)) (by decide) z.code_lt cp.code_lt d.code_lt i.isLt m.isLt
  refine ⟨hb, ?_⟩
  rw [decodeNat_type5 _ r1 r2]
  simp [decodeType5, f1, f2, f3, f5, f6, f7, Comp.ofCode_code, Dest.ofCode_code, Dreg.ofCode_code]

theorem RoundTrip.storePm (d : Dreg) (i : BitVec 2) (m : BitVec 2) : RoundTrip.Statement (.storePm d i m) := by
  intro hwf
  refine decode_encode_of _ rfl fun w hw => ?_
  obtain ⟨r1, r2, f1, f2, f3, f4, f5, f6, f7, hb⟩ := word_type5 (st := 1) (z := 0) (cp := 0) (d := d.code) (i :=
      i.toNat) (m := m.toNat) (hw.trans (by
    show 0x580000 + d.code * 16 + i.toNat * 4 + m.toNat = _
    omega)) (by decide) (by decide) (by decide) d.code_lt i.isLt m.isLt
  refine ⟨hb, ?_⟩
  rw [decodeNat_type5 _ r1 r2]
  simp [decodeType5, f1, f2, f3, f4, f5, f6, f7, Dreg.ofCode_code, Comp.ofCode_zero]

theorem RoundTrip.compStorePm (z : Dest) (cp : Comp) (d : Dreg) (i : BitVec 2) (m : BitVec 2) : RoundTrip.Statement
    (.compStorePm z cp d i m) := by
  intro hwf
  refine decode_encode_of _ rfl fun w hw => ?_
  obtain ⟨r1, r2, f1, f2, f3, f4, f5, f6, f7, hb⟩ := word_type5 (st := 1) (z := z.code) (cp := cp.code) (d :=
      d.code) (i := i.toNat) (m := m.toNat) (hw.trans (by
    show 0x580000 + z.code * 262144 + cp.code * 256 + d.code * 16 + i.toNat * 4 + m.toNat = _
    omega)) (by decide) z.code_lt cp.code_lt d.code_lt i.isLt m.isLt
  refine ⟨hb, ?_⟩
  rw [decodeNat_type5 _ r1 r2]
  simp [decodeType5, f1, f2, f3, f5, f6, f7, Comp.ofCode_code, Dest.ofCode_code, Dreg.ofCode_code]

theorem RoundTrip.storeDmImm (g : Bool) (data : BitVec 16) (i : BitVec 2) (m : BitVec 2) : RoundTrip.Statement
    (.storeDmImm g data i m) := by
  intro hwf
  refine decode_encode_of _ rfl fun w hw => ?_
  obtain ⟨r1, r2, f1, f2, f3, f4, hb⟩ := word_typeA (g := boolCode g) (v := data.toNat) (i := i.toNat) (m :=
      m.toNat) (hw.trans (by
    show 0xA00000 + boolCode g * 1048576 + data.toNat * 16 + i.toNat * 4 + m.toNat = _
    omega)) (boolCode_lt g) data.isLt i.isLt m.isLt
  refine ⟨hb, ?_⟩
  rw [decodeNat_storeDmImm _ r1 r2]
  simp [f1, f2, f3, f4, boolCode_beq]

theorem RoundTrip.loadReg (r : Reg) (addr : Addr) : RoundTrip.Statement (.loadReg r addr) := by
  intro hwf
  refine decode_encode_of _ rfl fun w hw => ?_
  obtain ⟨r1, r2, f1, f2, f3, f4, hb⟩ := word_type3 (st := 0) (g := r.group) (a := addr.toNat) (c := r.code)
      (hw.trans (by
    show 0x800000 + r.group * 262144 + r.code + addr.toNat * 16 = _
    omega)) (by decide) r.group_lt addr.isLt r.code_lt
  refine ⟨hb, ?_⟩
  rw [decodeNat_type3 _ r1 r2]
  have hr : r.writable = true := hwf
  simp [decodeType3, f1, f2, f3, f4, Reg.ofCode_code, Reg.ofCode_code, hr]

theorem RoundTrip.storeReg (r : Reg) (addr : Addr) : RoundTrip.Statement (.storeReg r addr) := by
  intro hwf
  refine decode_encode_of _ rfl fun w hw => ?_
  obtain ⟨r1, r2, f1, f2, f3, f4, hb⟩ := word_type3 (st := 1) (g := r.group) (a := addr.toNat) (c := r.code)
      (hw.trans (by
    show 0x900000 + r.group * 262144 + r.code + addr.toNat * 16 = _
    omega)) (by decide) r.group_lt addr.isLt r.code_lt
  refine ⟨hb, ?_⟩
  rw [decodeNat_type3 _ r1 r2]
  have hr : r.readable = true := hwf
  simp [decodeType3, f1, f2, f3, f4, Reg.ofCode_code, Reg.ofCode_code, hr]

theorem RoundTrip.loadDregImm (data : BitVec 16) (d : Dreg) : RoundTrip.Statement (.loadDregImm data d) := by
  intro hwf
  refine decode_encode_of _ rfl fun w hw => ?_
  obtain ⟨r1, r2, f1, f2, hb⟩ := word_type6 (v := data.toNat) (d := d.code) (hw.trans (by
    show 0x400000 + data.toNat * 16 + d.code = _
    omega)) data.isLt d.code_lt
  refine ⟨hb, ?_⟩
  rw [decodeNat_loadDregImm _ r1 r2]
  simp [f1, f2, Dreg.ofCode_code]

theorem RoundTrip.loadPmovlay (data : Addr) : RoundTrip.Statement (.loadPmovlay data) := by
  intro hwf
  refine decode_encode_of _ rfl fun w hw => ?_
  obtain ⟨r1, r2, f1, f2, f3, hb⟩ := word_type7 (g := 1) (a := data.toNat) (c := 14) (hw.trans (by
    show 0x34000E + data.toNat * 16 = _
    omega)) (by decide) data.isLt (by decide)
  refine ⟨hb, ?_⟩
  rw [decodeNat_type7 _ r1 r2]
  simp [decodeType7, f1, f2, f3, Reg.ofCode]

theorem RoundTrip.loadDmovlay (data : Addr) : RoundTrip.Statement (.loadDmovlay data) := by
  intro hwf
  refine decode_encode_of _ rfl fun w hw => ?_
  obtain ⟨r1, r2, f1, f2, f3, hb⟩ := word_type7 (g := 1) (a := data.toNat) (c := 15) (hw.trans (by
    show 0x34000F + data.toNat * 16 = _
    omega)) (by decide) data.isLt (by decide)
  refine ⟨hb, ?_⟩
  rw [decodeNat_type7 _ r1 r2]
  simp [decodeType7, f1, f2, f3, Reg.ofCode]

theorem RoundTrip.loadRegImm (r : Reg) (data : Addr) : RoundTrip.Statement (.loadRegImm r data) := by
  intro hwf
  refine decode_encode_of _ rfl fun w hw => ?_
  obtain ⟨r1, r2, f1, f2, f3, hb⟩ := word_type7 (g := r.group) (a := data.toNat) (c := r.code) (hw.trans (by
    show 0x300000 + r.group * 262144 + r.code + data.toNat * 16 = _
    omega)) r.group_lt data.isLt r.code_lt
  refine ⟨hb, ?_⟩
  rw [decodeNat_type7 _ r1 r2]
  have hr : r.writable = true ∧ r.notOverlay = true := by simpa [Instr.wellFormed] using hwf
  unfold decodeType7
  rw [f1, f3, Reg.ofCode_code, f2]
  cases r <;> first | exact absurd hr.2 (by decide) | exact absurd hr.1 (by decide) | simp [Reg.writable]

theorem RoundTrip.jump (addr : Addr) (c : Cond) : RoundTrip.Statement (.jump addr c) := by
  intro hwf
  refine decode_encode_of _ rfl fun w hw => ?_
  obtain ⟨r1, r2, f1, f2, f3, hb⟩ := word_type10 (k := 0) (a := addr.toNat) (c := c.code) (hw.trans (by
    show 0x180000 + addr.toNat * 16 + c.code = _
    omega)) (by decide) addr.isLt c.code_lt
  refine ⟨hb, ?_⟩
  rw [decodeNat_type10 _ r1 r2]
  simp [decodeType10, f1, f2, f3, Cond.ofCode_code]

theorem RoundTrip.call (addr : Addr) (c : Cond) : RoundTrip.Statement (.call addr c) := by
  intro hwf
  refine decode_encode_of _ rfl fun w hw => ?_
  obtain ⟨r1, r2, f1, f2, f3, hb⟩ := word_type10 (k := 1) (a := addr.toNat) (c := c.code) (hw.trans (by
    show 0x1C0000 + addr.toNat * 16 + c.code = _
    omega)) (by decide) addr.isLt c.code_lt
  refine ⟨hb, ?_⟩
  rw [decodeNat_type10 _ r1 r2]
  simp [decodeType10, f1, f2, f3, Cond.ofCode_code]

theorem RoundTrip.doUntil (addr : Addr) (t : Term) : RoundTrip.Statement (.doUntil addr t) := by
  intro hwf
  refine decode_encode_of _ rfl fun w hw => ?_
  obtain ⟨r1, r2, f1, f2, hb⟩ := word_type11 (a := addr.toNat) (c := t.code) (hw.trans (by
    show 0x140000 + addr.toNat * 16 + t.code = _
    omega)) addr.isLt t.code_lt
  refine ⟨hb, ?_⟩
  rw [decodeNat_doUntil _ r1 r2]
  simp [f1, f2, Term.ofCode_code]

theorem RoundTrip.shiftLoadDm (g : Bool) (fn : ShiftFn) (x : ShXop) (d : Dreg) (i : BitVec 2) (m : BitVec 2) :
    RoundTrip.Statement (.shiftLoadDm g fn x d i m) := by
  intro hwf
  refine decode_encode_of _ rfl fun w hw => ?_
  obtain ⟨r1, r2, f1, f2, f3, f4, f5, f6, f7, hb⟩ := word_type12 (g := boolCode g) (st := 0) (fn := fn.code) (x :=
      x.code) (d := d.code) (i := i.toNat) (m := m.toNat) (hw.trans (by
    show 0x120000 + boolCode g * 65536 + fn.code * 2048 + x.code * 256 + d.code * 16 + i.toNat * 4 + m.toNat = _
    omega)) (boolCode_lt g) (by decide) fn.code_lt x.code_lt d.code_lt i.isLt m.isLt
  refine ⟨hb, ?_⟩
  rw [decodeNat_type12 _ r1 r2]
  simp [decodeType12, f1, f2, f3, f4, f5, f6, f7, Dreg.ofCode_code, ShXop.ofCode_code, ShiftFn.ofCode_code,
      boolCode_beq]

theorem RoundTrip.shiftStoreDm (g : Bool) (fn : ShiftFn) (x : ShXop) (d : Dreg) (i : BitVec 2) (m : BitVec 2) :
    RoundTrip.Statement (.shiftStoreDm g fn x d i m) := by
  intro hwf
  refine decode_encode_of _ rfl fun w hw => ?_
  obtain ⟨r1, r2, f1, f2, f3, f4, f5, f6, f7, hb⟩ := word_type12 (g := boolCode g) (st := 1) (fn := fn.code) (x :=
      x.code) (d := d.code) (i := i.toNat) (m := m.toNat) (hw.trans (by
    show 0x128000 + boolCode g * 65536 + fn.code * 2048 + x.code * 256 + d.code * 16 + i.toNat * 4 + m.toNat = _
    omega)) (boolCode_lt g) (by decide) fn.code_lt x.code_lt d.code_lt i.isLt m.isLt
  refine ⟨hb, ?_⟩
  rw [decodeNat_type12 _ r1 r2]
  simp [decodeType12, f1, f2, f3, f4, f5, f6, f7, Dreg.ofCode_code, ShXop.ofCode_code, ShiftFn.ofCode_code,
      boolCode_beq]

theorem RoundTrip.shiftLoadPm (fn : ShiftFn) (x : ShXop) (d : Dreg) (i : BitVec 2) (m : BitVec 2) :
    RoundTrip.Statement (.shiftLoadPm fn x d i m) := by
  intro hwf
  refine decode_encode_of _ rfl fun w hw => ?_
  obtain ⟨r1, r2, f1, f2, f3, f4, f5, f6, hb⟩ := word_type13 (st := 0) (fn := fn.code) (x := x.code) (d := d.code)
      (i := i.toNat) (m := m.toNat) (hw.trans (by
    show 0x110000 + fn.code * 2048 + x.code * 256 + d.code * 16 + i.toNat * 4 + m.toNat = _
    omega)) (by decide) fn.code_lt x.code_lt d.code_lt i.isLt m.isLt
  refine ⟨hb, ?_⟩
  rw [decodeNat_type13 _ r1 r2]
  simp [decodeType13, f1, f2, f3, f4, f5, f6, Dreg.ofCode_code, ShXop.ofCode_code, ShiftFn.ofCode_code]

theorem RoundTrip.shiftStorePm (fn : ShiftFn) (x : ShXop) (d : Dreg) (i : BitVec 2) (m : BitVec 2) :
    RoundTrip.Statement (.shiftStorePm fn x d i m) := by
  intro hwf
  refine decode_encode_of _ rfl fun w hw => ?_
  obtain ⟨r1, r2, f1, f2, f3, f4, f5, f6, hb⟩ := word_type13 (st := 1) (fn := fn.code) (x := x.code) (d := d.code)
      (i := i.toNat) (m := m.toNat) (hw.trans (by
    show 0x118000 + fn.code * 2048 + x.code * 256 + d.code * 16 + i.toNat * 4 + m.toNat = _
    omega)) (by decide) fn.code_lt x.code_lt d.code_lt i.isLt m.isLt
  refine ⟨hb, ?_⟩
  rw [decodeNat_type13 _ r1 r2]
  simp [decodeType13, f1, f2, f3, f4, f5, f6, Dreg.ofCode_code, ShXop.ofCode_code, ShiftFn.ofCode_code]

theorem RoundTrip.shiftMove (fn : ShiftFn) (x : ShXop) (dd : Dreg) (sd : Dreg) : RoundTrip.Statement (.shiftMove fn
    x dd sd) := by
  intro hwf
  refine decode_encode_of _ rfl fun w hw => ?_
  obtain ⟨r1, r2, f1, f2, f3, f4, f5, hb⟩ := word_type14 (fn := fn.code) (x := x.code) (d := dd.code) (c :=
      sd.code) (hw.trans (by
    show 0x100000 + fn.code * 2048 + x.code * 256 + dd.code * 16 + sd.code = _
    omega)) fn.code_lt x.code_lt dd.code_lt sd.code_lt
  refine ⟨hb, ?_⟩
  rw [decodeNat_type14 _ r1 r2]
  simp [decodeType14, f1, f2, f3, f4, f5, Dreg.ofCode_code, ShXop.ofCode_code, ShiftFn.ofCode_code]

theorem RoundTrip.lshiftImmHi (x : ShXop) (e : BitVec 8) : RoundTrip.Statement (.lshiftImmHi x e) := by
  intro hwf
  refine decode_encode_of _ rfl fun w hw => ?_
  obtain ⟨r1, f1, f2, f3, f4, f5, f6, hb⟩ := word_type15 (fn := 0) (x := x.code) (e := e.toNat) (hw.trans (by
    show 0x0F0000 + x.code * 256 + e.toNat = _
    omega)) (by decide) x.code_lt e.isLt
  refine ⟨hb, ?_⟩
  rw [decodeNat_type15 _ r1]
  simp [decodeType15, f1, f2, f3, f4, ShXop.ofCode_code]

theorem RoundTrip.lshiftImmHiOr (x : ShXop) (e : BitVec 8) : RoundTrip.Statement (.lshiftImmHiOr x e) := by
  intro hwf
  refine decode_encode_of _ rfl fun w hw => ?_
  obtain ⟨r1, f1, f2, f3, f4, f5, f6, hb⟩ := word_type15 (fn := 1) (x := x.code) (e := e.toNat) (hw.trans (by
    show 0x0F0800 + x.code * 256 + e.toNat = _
    omega)) (by decide) x.code_lt e.isLt
  refine ⟨hb, ?_⟩
  rw [decodeNat_type15 _ r1]
  simp [decodeType15, f1, f2, f3, f4, ShXop.ofCode_code]

theorem RoundTrip.lshiftImmLo (x : ShXop) (e : BitVec 8) : RoundTrip.Statement (.lshiftImmLo x e) := by
  intro hwf
  refine decode_encode_of _ rfl fun w hw => ?_
  obtain ⟨r1, f1, f2, f3, f4, f5, f6, hb⟩ := word_type15 (fn := 2) (x := x.code) (e := e.toNat) (hw.trans (by
    show 0x0F1000 + x.code * 256 + e.toNat = _
    omega)) (by decide) x.code_lt e.isLt
  refine ⟨hb, ?_⟩
  rw [decodeNat_type15 _ r1]
  simp [decodeType15, f1, f2, f3, f4, ShXop.ofCode_code]

theorem RoundTrip.lshiftImmLoOr (x : ShXop) (e : BitVec 8) : RoundTrip.Statement (.lshiftImmLoOr x e) := by
  intro hwf
  refine decode_encode_of _ rfl fun w hw => ?_
  obtain ⟨r1, f1, f2, f3, f4, f5, f6, hb⟩ := word_type15 (fn := 3) (x := x.code) (e := e.toNat) (hw.trans (by
    show 0x0F1800 + x.code * 256 + e.toNat = _
    omega)) (by decide) x.code_lt e.isLt
  refine ⟨hb, ?_⟩
  rw [decodeNat_type15 _ r1]
  simp [decodeType15, f1, f2, f3, f4, ShXop.ofCode_code]

theorem RoundTrip.ashiftImmHi (x : ShXop) (e : BitVec 8) : RoundTrip.Statement (.ashiftImmHi x e) := by
  intro hwf
  refine decode_encode_of _ rfl fun w hw => ?_
  obtain ⟨r1, f1, f2, f3, f4, f5, f6, hb⟩ := word_type15 (fn := 4) (x := x.code) (e := e.toNat) (hw.trans (by
    show 0x0F2000 + x.code * 256 + e.toNat = _
    omega)) (by decide) x.code_lt e.isLt
  refine ⟨hb, ?_⟩
  rw [decodeNat_type15 _ r1]
  simp [decodeType15, f1, f2, f3, f4, ShXop.ofCode_code]

theorem RoundTrip.ashiftImmHiOr (x : ShXop) (e : BitVec 8) : RoundTrip.Statement (.ashiftImmHiOr x e) := by
  intro hwf
  refine decode_encode_of _ rfl fun w hw => ?_
  obtain ⟨r1, f1, f2, f3, f4, f5, f6, hb⟩ := word_type15 (fn := 5) (x := x.code) (e := e.toNat) (hw.trans (by
    show 0x0F2800 + x.code * 256 + e.toNat = _
    omega)) (by decide) x.code_lt e.isLt
  refine ⟨hb, ?_⟩
  rw [decodeNat_type15 _ r1]
  simp [decodeType15, f1, f2, f3, f4, ShXop.ofCode_code]

theorem RoundTrip.ashiftImmLo (x : ShXop) (e : BitVec 8) : RoundTrip.Statement (.ashiftImmLo x e) := by
  intro hwf
  refine decode_encode_of _ rfl fun w hw => ?_
  obtain ⟨r1, f1, f2, f3, f4, f5, f6, hb⟩ := word_type15 (fn := 6) (x := x.code) (e := e.toNat) (hw.trans (by
    show 0x0F3000 + x.code * 256 + e.toNat = _
    omega)) (by decide) x.code_lt e.isLt
  refine ⟨hb, ?_⟩
  rw [decodeNat_type15 _ r1]
  simp [decodeType15, f1, f2, f3, f4, ShXop.ofCode_code]

theorem RoundTrip.ashiftImmLoOr (x : ShXop) (e : BitVec 8) : RoundTrip.Statement (.ashiftImmLoOr x e) := by
  intro hwf
  refine decode_encode_of _ rfl fun w hw => ?_
  obtain ⟨r1, f1, f2, f3, f4, f5, f6, hb⟩ := word_type15 (fn := 7) (x := x.code) (e := e.toNat) (hw.trans (by
    show 0x0F3800 + x.code * 256 + e.toNat = _
    omega)) (by decide) x.code_lt e.isLt
  refine ⟨hb, ?_⟩
  rw [decodeNat_type15 _ r1]
  simp [decodeType15, f1, f2, f3, f4, ShXop.ofCode_code]

theorem RoundTrip.lshiftHi (x : ShXop) (c : Cond) : RoundTrip.Statement (.lshiftHi x c) := by
  intro hwf
  have hc := c.code_lt
  refine decode_encode_of _ rfl fun w hw => ?_
  obtain ⟨r1, f1, f2, f3, f4, f5, f6, hb⟩ := word_type16 (fn := 0) (x := x.code) (e := c.code) (hw.trans (by
    show 0x0E0000 + x.code * 256 + c.code = _
    omega)) (by decide) x.code_lt (Nat.lt_trans c.code_lt (by decide))
  refine ⟨hb, ?_⟩
  rw [decodeNat_type16 _ r1]
  have h1 : c.code / 16 = 0 := by omega
  have h2 : c.code % 16 = c.code := by omega
  simp [decodeType16, f1, f2, f3, f5, f6, Cond.ofCode_code, ShXop.ofCode_code, h1, h2]

theorem RoundTrip.lshiftHiOr (x : ShXop) (c : Cond) : RoundTrip.Statement (.lshiftHiOr x c) := by
  intro hwf
  have hc := c.code_lt
  refine decode_encode_of _ rfl fun w hw => ?_
  obtain ⟨r1, f1, f2, f3, f4, f5, f6, hb⟩ := word_type16 (fn := 1) (x := x.code) (e := c.code) (hw.trans (by
    show 0x0E0800 + x.code * 256 + c.code = _
    omega)) (by decide) x.code_lt (Nat.lt_trans c.code_lt (by decide))
  refine ⟨hb, ?_⟩
  rw [decodeNat_type16 _ r1]
  have h1 : c.code / 16 = 0 := by omega
  have h2 : c.code % 16 = c.code := by omega
  simp [decodeType16, f1, f2, f3, f5, f6, Cond.ofCode_code, ShXop.ofCode_code, h1, h2]

theorem RoundTrip.lshiftLo (x : ShXop) (c : Cond) : RoundTrip.Statement (.lshiftLo x c) := by
  intro hwf
  have hc := c.code_lt
  refine decode_encode_of _ rfl fun w hw => ?_
  obtain ⟨r1, f1, f2, f3, f4, f5, f6, hb⟩ := word_type16 (fn := 2) (x := x.code) (e := c.code) (hw.trans (by
    show 0x0E1000 + x.code * 256 + c.code = _
    omega)) (by decide) x.code_lt (Nat.lt_trans c.code_lt (by decide))
  refine ⟨hb, ?_⟩
  rw [decodeNat_type16 _ r1]
  have h1 : c.code / 16 = 0 := by omega
  have h2 : c.code % 16 = c.code := by omega
  simp [decodeType16, f1, f2, f3, f5, f6, Cond.ofCode_code, ShXop.ofCode_code, h1, h2]

theorem RoundTrip.lshiftLoOr (x : ShXop) (c : Cond) : RoundTrip.Statement (.lshiftLoOr x c) := by
  intro hwf
  have hc := c.code_lt
  refine decode_encode_of _ rfl fun w hw => ?_
  obtain ⟨r1, f1, f2, f3, f4, f5, f6, hb⟩ := word_type16 (fn := 3) (x := x.code) (e := c.code) (hw.trans (by
    show 0x0E1800 + x.code * 256 + c.code = _
    omega)) (by decide) x.code_lt (Nat.lt_trans c.code_lt (by decide))
  refine ⟨hb, ?_⟩
  rw [decodeNat_type16 _ r1]
  have h1 : c.code / 16 = 0 := by omega
  have h2 : c.code % 16 = c.code := by omega
  simp [decodeType16, f1, f2, f3, f5, f6, Cond.ofCode_code, ShXop.ofCode_code, h1, h2]

theorem RoundTrip.ashiftHi (x : ShXop) (c : Cond) : RoundTrip.Statement (.ashiftHi x c) := by
  intro hwf
  have hc := c.code_lt
  refine decode_encode_of _ rfl fun w hw => ?_
  obtain ⟨r1, f1, f2, f3, f4, f5, f6, hb⟩ := word_type16 (fn := 4) (x := x.code) (e := c.code) (hw.trans (by
    show 0x0E2000 + x.code * 256 + c.code = _
    omega)) (by decide) x.code_lt (Nat.lt_trans c.code_lt (by decide))
  refine ⟨hb, ?_⟩
  rw [decodeNat_type16 _ r1]
  have h1 : c.code / 16 = 0 := by omega
  have h2 : c.code % 16 = c.code := by omega
  simp [decodeType16, f1, f2, f3, f5, f6, Cond.ofCode_code, ShXop.ofCode_code, h1, h2]

theorem RoundTrip.ashiftHiOr (x : ShXop) (c : Cond) : RoundTrip.Statement (.ashiftHiOr x c) := by
  intro hwf
  have hc := c.code_lt
  refine decode_encode_of _ rfl fun w hw => ?_
  obtain ⟨r1, f1, f2, f3, f4, f5, f6, hb⟩ := word_type16 (fn := 5) (x := x.code) (e := c.code) (hw.trans (by
    show 0x0E2800 + x.code * 256 + c.code = _
    omega)) (by decide) x.code_lt (Nat.lt_trans c.code_lt (by decide))
  refine ⟨hb, ?_⟩
  rw [decodeNat_type16 _ r1]
  have h1 : c.code / 16 = 0 := by omega
  have h2 : c.code % 16 = c.code := by omega
  simp [decodeType16, f1, f2, f3, f5, f6, Cond.ofCode_code, ShXop.ofCode_code, h1, h2]

theorem RoundTrip.ashiftLo (x : ShXop) (c : Cond) : RoundTrip.Statement (.ashiftLo x c) := by
  intro hwf
  have hc := c.code_lt
  refine decode_encode_of _ rfl fun w hw => ?_
  obtain ⟨r1, f1, f2, f3, f4, f5, f6, hb⟩ := word_type16 (fn := 6) (x := x.code) (e := c.code) (hw.trans (by
    show 0x0E3000 + x.code * 256 + c.code = _
    omega)) (by decide) x.code_lt (Nat.lt_trans c.code_lt (by decide))
  refine ⟨hb, ?_⟩
  rw [decodeNat_type16 _ r1]
  have h1 : c.code / 16 = 0 := by omega
  have h2 : c.code % 16 = c.code := by omega
  simp [decodeType16, f1, f2, f3, f5, f6, Cond.ofCode_code, ShXop.ofCode_code, h1, h2]

theorem RoundTrip.ashiftLoOr (x : ShXop) (c : Cond) : RoundTrip.Statement (.ashiftLoOr x c) := by
  intro hwf
  have hc := c.code_lt
  refine decode_encode_of _ rfl fun w hw => ?_
  obtain ⟨r1, f1, f2, f3, f4, f5, f6, hb⟩ := word_type16 (fn := 7) (x := x.code) (e := c.code) (hw.trans (by
    show 0x0E3800 + x.code * 256 + c.code = _
    omega)) (by decide) x.code_lt (Nat.lt_trans c.code_lt (by decide))
  refine ⟨hb, ?_⟩
  rw [decodeNat_type16 _ r1]
  have h1 : c.code / 16 = 0 := by omega
  have h2 : c.code % 16 = c.code := by omega
  simp [decodeType16, f1, f2, f3, f5, f6, Cond.ofCode_code, ShXop.ofCode_code, h1, h2]

theorem RoundTrip.normHi (x : ShXop) (c : Cond) : RoundTrip.Statement (.normHi x c) := by
  intro hwf
  have hc := c.code_lt
  refine decode_encode_of _ rfl fun w hw => ?_
  obtain ⟨r1, f1, f2, f3, f4, f5, f6, hb⟩ := word_type16 (fn := 8) (x := x.code) (e := c.code) (hw.trans (by
    show 0x0E4000 + x.code * 256 + c.code = _
    omega)) (by decide) x.code_lt (Nat.lt_trans c.code_lt (by decide))
  refine ⟨hb, ?_⟩
  rw [decodeNat_type16 _ r1]
  have h1 : c.code / 16 = 0 := by omega
  have h2 : c.code % 16 = c.code := by omega
  simp [decodeType16, f1, f2, f3, f5, f6, Cond.ofCode_code, ShXop.ofCode_code, h1, h2]

theorem RoundTrip.normHiOr (x : ShXop) (c : Cond) : RoundTrip.Statement (.normHiOr x c) := by
  intro hwf
  have hc := c.code_lt
  refine decode_encode_of _ rfl fun w hw => ?_
  obtain ⟨r1, f1, f2, f3, f4, f5, f6, hb⟩ := word_type16 (fn := 9) (x := x.code) (e := c.code) (hw.trans (by
    show 0x0E4800 + x.code * 256 + c.code = _
    omega)) (by decide) x.code_lt (Nat.lt_trans c.code_lt (by decide))
  refine ⟨hb, ?_⟩
  rw [decodeNat_type16 _ r1]
  have h1 : c.code / 16 = 0 := by omega
  have h2 : c.code % 16 = c.code := by omega
  simp [decodeType16, f1, f2, f3, f5, f6, Cond.ofCode_code, ShXop.ofCode_code, h1, h2]

theorem RoundTrip.normLo (x : ShXop) (c : Cond) : RoundTrip.Statement (.normLo x c) := by
  intro hwf
  have hc := c.code_lt
  refine decode_encode_of _ rfl fun w hw => ?_
  obtain ⟨r1, f1, f2, f3, f4, f5, f6, hb⟩ := word_type16 (fn := 10) (x := x.code) (e := c.code) (hw.trans (by
    show 0x0E5000 + x.code * 256 + c.code = _
    omega)) (by decide) x.code_lt (Nat.lt_trans c.code_lt (by decide))
  refine ⟨hb, ?_⟩
  rw [decodeNat_type16 _ r1]
  have h1 : c.code / 16 = 0 := by omega
  have h2 : c.code % 16 = c.code := by omega
  simp [decodeType16, f1, f2, f3, f5, f6, Cond.ofCode_code, ShXop.ofCode_code, h1, h2]

theorem RoundTrip.normLoOr (x : ShXop) (c : Cond) : RoundTrip.Statement (.normLoOr x c) := by
  intro hwf
  have hc := c.code_lt
  refine decode_encode_of _ rfl fun w hw => ?_
  obtain ⟨r1, f1, f2, f3, f4, f5, f6, hb⟩ := word_type16 (fn := 11) (x := x.code) (e := c.code) (hw.trans (by
    show 0x0E5800 + x.code * 256 + c.code = _
    omega)) (by decide) x.code_lt (Nat.lt_trans c.code_lt (by decide))
  refine ⟨hb, ?_⟩
  rw [decodeNat_type16 _ r1]
  have h1 : c.code / 16 = 0 := by omega
  have h2 : c.code % 16 = c.code := by omega
  simp [decodeType16, f1, f2, f3, f5, f6, Cond.ofCode_code, ShXop.ofCode_code, h1, h2]

theorem RoundTrip.expHi (x : ShXop) (c : Cond) : RoundTrip.Statement (.expHi x c) := by
  intro hwf
  have hc := c.code_lt
  refine decode_encode_of _ rfl fun w hw => ?_
  obtain ⟨r1, f1, f2, f3, f4, f5, f6, hb⟩ := word_type16 (fn := 12) (x := x.code) (e := c.code) (hw.trans (by
    show 0x0E6000 + x.code * 256 + c.code = _
    omega)) (by decide) x.code_lt (Nat.lt_trans c.code_lt (by decide))
  refine ⟨hb, ?_⟩
  rw [decodeNat_type16 _ r1]
  have h1 : c.code / 16 = 0 := by omega
  have h2 : c.code % 16 = c.code := by omega
  simp [decodeType16, f1, f2, f3, f5, f6, Cond.ofCode_code, ShXop.ofCode_code, h1, h2]

theorem RoundTrip.expHix (x : ShXop) (c : Cond) : RoundTrip.Statement (.expHix x c) := by
  intro hwf
  have hc := c.code_lt
  refine decode_encode_of _ rfl fun w hw => ?_
  obtain ⟨r1, f1, f2, f3, f4, f5, f6, hb⟩ := word_type16 (fn := 13) (x := x.code) (e := c.code) (hw.trans (by
    show 0x0E6800 + x.code * 256 + c.code = _
    omega)) (by decide) x.code_lt (Nat.lt_trans c.code_lt (by decide))
  refine ⟨hb, ?_⟩
  rw [decodeNat_type16 _ r1]
  have h1 : c.code / 16 = 0 := by omega
  have h2 : c.code % 16 = c.code := by omega
  simp [decodeType16, f1, f2, f3, f5, f6, Cond.ofCode_code, ShXop.ofCode_code, h1, h2]

theorem RoundTrip.expLo (x : ShXop) (c : Cond) : RoundTrip.Statement (.expLo x c) := by
  intro hwf
  have hc := c.code_lt
  refine decode_encode_of _ rfl fun w hw => ?_
  obtain ⟨r1, f1, f2, f3, f4, f5, f6, hb⟩ := word_type16 (fn := 14) (x := x.code) (e := c.code) (hw.trans (by
    show 0x0E7000 + x.code * 256 + c.code = _
    omega)) (by decide) x.code_lt (Nat.lt_trans c.code_lt (by decide))
  refine ⟨hb, ?_⟩
  rw [decodeNat_type16 _ r1]
  have h1 : c.code / 16 = 0 := by omega
  have h2 : c.code % 16 = c.code := by omega
  simp [decodeType16, f1, f2, f3, f5, f6, Cond.ofCode_code, ShXop.ofCode_code, h1, h2]

theorem RoundTrip.expAdj (x : ShXop) (c : Cond) : RoundTrip.Statement (.expAdj x c) := by
  intro hwf
  have hc := c.code_lt
  refine decode_encode_of _ rfl fun w hw => ?_
  obtain ⟨r1, f1, f2, f3, f4, f5, f6, hb⟩ := word_type16 (fn := 15) (x := x.code) (e := c.code) (hw.trans (by
    show 0x0E7800 + x.code * 256 + c.code = _
    omega)) (by decide) x.code_lt (Nat.lt_trans c.code_lt (by decide))
  refine ⟨hb, ?_⟩
  rw [decodeNat_type16 _ r1]
  have h1 : c.code / 16 = 0 := by omega
  have h2 : c.code % 16 = c.code := by omega
  simp [decodeType16, f1, f2, f3, f5, f6, Cond.ofCode_code, ShXop.ofCode_code, h1, h2]

theorem RoundTrip.pushTop (r : Reg) : RoundTrip.Statement (.pushTop r) := by
  intro hwf
  refine decode_encode_of _ rfl fun w hw => ?_
  obtain ⟨r1, f1, f2, f3, f4, f5, hb⟩ := word_type17 (dg := 3) (sg := r.group) (dc := 15) (sc := r.code) (hw.trans (by
    show 0x0D0CF0 + r.group * 256 + r.code = _
    omega)) (by decide) r.group_lt (by decide) r.code_lt
  refine ⟨hb, ?_⟩
  rw [decodeNat_type17 _ r1]
  have hr : r.pairsTop = true := hwf
  simp [decodeType17, f1, f2, f3, f4, f5, hr, Reg.ofCode_code]

theorem RoundTrip.popTop (r : Reg) : RoundTrip.Statement (.popTop r) := by
  intro hwf
  refine decode_encode_of _ rfl fun w hw => ?_
  obtain ⟨r1, f1, f2, f3, f4, f5, hb⟩ := word_type17 (dg := r.group) (sg := 3) (dc := r.code) (sc := 15) (hw.trans (by
    show 0x0D030F + r.group * 1024 + r.code * 16 = _
    omega)) r.group_lt (by decide) r.code_lt (by decide)
  refine ⟨hb, ?_⟩
  rw [decodeNat_type17 _ r1]
  have h1 := r.not_top
  have hr : r.pairsTop = true := hwf
  simp [decodeType17, f1, f2, f3, f4, f5, h1, hr, Reg.ofCode_code]

theorem RoundTrip.moveReg (dst : Reg) (src : Reg) : RoundTrip.Statement (.moveReg dst src) := by
  intro hwf
  refine decode_encode_of _ rfl fun w hw => ?_
  obtain ⟨r1, f1, f2, f3, f4, f5, hb⟩ := word_type17 (dg := dst.group) (sg := src.group) (dc := dst.code) (sc :=
      src.code) (hw.trans (by
    show 0x0D0000 + dst.group * 1024 + dst.code * 16 + src.group * 256 + src.code = _
    omega)) dst.group_lt src.group_lt dst.code_lt src.code_lt
  refine ⟨hb, ?_⟩
  rw [decodeNat_type17 _ r1]
  have h1 := dst.not_top
  have h2 := src.not_top
  have hr : dst.writable = true ∧ src.readable = true := by simpa [Instr.wellFormed] using hwf
  simp [decodeType17, f1, f2, f3, f4, f5, h1, h2, hr, Reg.ofCode_code]

theorem RoundTrip.modeControl (tim : ModeOp) (mac : ModeOp) (sat : ModeOp) (ovl : ModeOp) (rev : ModeOp) (sec :
    ModeOp) (go : ModeOp) : RoundTrip.Statement (.modeControl tim mac sat ovl rev sec go) := by
  intro hwf
  have h_tim := tim.code_lt
  have h_mac := mac.code_lt
  have h_sat := sat.code_lt
  have h_ovl := ovl.code_lt
  have h_rev := rev.code_lt
  have h_sec := sec.code_lt
  have h_go := go.code_lt
  refine decode_encode_of _ rfl fun w hw => ?_
  replace hw : w = 0x0C0000 + tim.code * 16384 + mac.code * 4096 + sat.code * 1024 + ovl.code * 256 + rev.code * 64
      + sec.code * 16 + go.code * 4 := hw
  refine ⟨by omega, ?_⟩
  rw [decodeNat_type18 w (by omega)]
  have t1 : w / 16384 % 4 = tim.code := by omega
  have t2 : w / 4096 % 4 = mac.code := by omega
  have t3 : w / 1024 % 4 = sat.code := by omega
  have t4 : w / 256 % 4 = ovl.code := by omega
  have t5 : w / 64 % 4 = rev.code := by omega
  have t6 : w / 16 % 4 = sec.code := by omega
  have t7 : w / 4 % 4 = go.code := by omega
  have t8 : w % 4 = 0 := by omega
  simp [decodeType18, t1, t2, t3, t4, t5, t6, t7, t8, ModeOp.ofCode_code]

theorem RoundTrip.jumpInd (i : BitVec 2) (c : Cond) : RoundTrip.Statement (.jumpInd i c) := by
  intro hwf
  have h_i := i.isLt
  have h_c := c.code_lt
  refine decode_encode_of _ rfl fun w hw => ?_
  replace hw : w = 0x0B0000 + i.toNat * 64 + c.code := hw
  refine ⟨by omega, ?_⟩
  rw [decodeNat_type19 w (by omega)]
  have t1 : w / 64 % 4 = i.toNat := by omega
  have t2 : w % 16 = c.code := by omega
  have t3 : w / 256 % 256 = 0 := by omega
  have t4 : w / 32 % 2 = 0 := by omega
  have t5 : w / 16 % 2 = 0 := by omega
  simp [decodeType19, t1, t2, t3, t4, t5, Cond.ofCode_code]

theorem RoundTrip.callInd (i : BitVec 2) (c : Cond) : RoundTrip.Statement (.callInd i c) := by
  intro hwf
  have h_i := i.isLt
  have h_c := c.code_lt
  refine decode_encode_of _ rfl fun w hw => ?_
  replace hw : w = 0x0B0010 + i.toNat * 64 + c.code := hw
  refine ⟨by omega, ?_⟩
  rw [decodeNat_type19 w (by omega)]
  have t1 : w / 64 % 4 = i.toNat := by omega
  have t2 : w % 16 = c.code := by omega
  have t3 : w / 256 % 256 = 0 := by omega
  have t4 : w / 32 % 2 = 0 := by omega
  have t5 : w / 16 % 2 = 1 := by omega
  simp [decodeType19, t1, t2, t3, t4, t5, Cond.ofCode_code]

theorem RoundTrip.rts (c : Cond) : RoundTrip.Statement (.rts c) := by
  intro hwf
  have h_c := c.code_lt
  refine decode_encode_of _ rfl fun w hw => ?_
  replace hw : w = 0x0A0000 + c.code := hw
  refine ⟨by omega, ?_⟩
  rw [decodeNat_type20 w (by omega)]
  have t1 : w % 16 = c.code := by omega
  have t2 : w / 32 % 2048 = 0 := by omega
  have t3 : w / 16 % 2 = 0 := by omega
  simp [decodeType20, t1, t2, t3, Cond.ofCode_code]

theorem RoundTrip.rti (c : Cond) : RoundTrip.Statement (.rti c) := by
  intro hwf
  have h_c := c.code_lt
  refine decode_encode_of _ rfl fun w hw => ?_
  replace hw : w = 0x0A0010 + c.code := hw
  refine ⟨by omega, ?_⟩
  rw [decodeNat_type20 w (by omega)]
  have t1 : w % 16 = c.code := by omega
  have t2 : w / 32 % 2048 = 0 := by omega
  have t3 : w / 16 % 2 = 1 := by omega
  simp [decodeType20, t1, t2, t3, Cond.ofCode_code]

theorem RoundTrip.modify (g : Bool) (i : BitVec 2) (m : BitVec 2) : RoundTrip.Statement (.modify g i m) := by
  intro hwf
  have h_g := (boolCode_lt g)
  have h_i := i.isLt
  have h_m := m.isLt
  refine decode_encode_of _ rfl fun w hw => ?_
  replace hw : w = 0x090000 + boolCode g * 16 + i.toNat * 4 + m.toNat := hw
  refine ⟨by omega, ?_⟩
  rw [decodeNat_type21 w (by omega)]
  have t1 : w / 16 % 2 = boolCode g := by omega
  have t2 : w / 4 % 4 = i.toNat := by omega
  have t3 : w % 4 = m.toNat := by omega
  have t4 : w / 32 % 2048 = 0 := by omega
  simp [decodeType21, t1, t2, t3, t4, boolCode_beq]

theorem RoundTrip.divq (x : Xop) : RoundTrip.Statement (.divq x) := by
  intro hwf
  have h_x := x.code_lt
  refine decode_encode_of _ rfl fun w hw => ?_
  replace hw : w = 0x071000 + x.code * 256 := hw
  refine ⟨by omega, ?_⟩
  rw [decodeNat_type23 w (by omega)]
  have t1 : w / 256 % 8 = x.code := by omega
  have t2 : w / 2048 % 32 = 2 := by omega
  have t3 : w % 256 = 0 := by omega
  simp [decodeType23, t1, t2, t3, Xop.ofCode_code]

theorem RoundTrip.divs (y : DivY) (x : Xop) : RoundTrip.Statement (.divs y x) := by
  intro hwf
  have h_y := y.code_lt
  have h_x := x.code_lt
  refine decode_encode_of _ rfl fun w hw => ?_
  replace hw : w = 0x060000 + y.code * 2048 + x.code * 256 := hw
  refine ⟨by omega, ?_⟩
  rw [decodeNat_type24 w (by omega)]
  have t1 : w / 2048 % 4 = y.code := by omega
  have t2 : w / 256 % 8 = x.code := by omega
  have t3 : w / 8192 % 8 = 0 := by omega
  have t4 : w % 256 = 0 := by omega
  simp [decodeType24, t1, t2, t3, t4, DivY.ofCode_code, Xop.ofCode_code]

theorem RoundTrip.satMr : RoundTrip.Statement .satMr := fun _ => rfl

theorem RoundTrip.enaInts : RoundTrip.Statement .enaInts := fun _ => rfl

theorem RoundTrip.disInts : RoundTrip.Statement .disInts := fun _ => rfl

theorem RoundTrip.stackControl (iq : Bool) (pp : Bool) (lp : Bool) (cp : Bool) (spp : StsOp) : RoundTrip.Statement
    (.stackControl iq pp lp cp spp) := by
  intro hwf
  have h_iq := (boolCode_lt iq)
  have h_pp := (boolCode_lt pp)
  have h_lp := (boolCode_lt lp)
  have h_cp := (boolCode_lt cp)
  have h_spp := spp.code_lt
  refine decode_encode_of _ rfl fun w hw => ?_
  replace hw : w = 0x040000 + boolCode iq * 32 + boolCode pp * 16 + boolCode lp * 8 + boolCode cp * 4 + spp.code := hw
  refine ⟨by omega, ?_⟩
  rw [decodeNat_type26 w (by omega)]
  have t1 : w / 32 % 2 = boolCode iq := by omega
  have t2 : w / 16 % 2 = boolCode pp := by omega
  have t3 : w / 8 % 2 = boolCode lp := by omega
  have t4 : w / 4 % 2 = boolCode cp := by omega
  have t5 : w % 4 = spp.code := by omega
  have t6 : w / 128 % 512 = 0 := by omega
  have t7 : w / 64 % 2 = 0 := by omega
  have h1 : w % 65536 ≠ 96 := by omega
  have h2 : w % 65536 ≠ 64 := by omega
  simp [decodeType26, t1, t2, t3, t4, t5, t6, t7, StsOp.ofCode_code, boolCode_beq, h1, h2]

theorem RoundTrip.jumpFlagIn (addr : Addr) (fic : Bool) : RoundTrip.Statement (.jumpFlagIn addr fic) := by
  intro hwf
  have h_addr := addr.isLt
  refine decode_encode_of _ rfl fun w hw => ?_
  obtain ⟨r1, f1, f2, f3, f4, hb⟩ := word_type27 (r := addr.toNat % 4096) (q := addr.toNat / 4096) (f := boolCode
      fic) (s := 0) (hw.trans (by
    show 0x030000 + addr.toNat % 4096 * 16 + addr.toNat / 4096 * 4 + boolCode fic * 2 = _
    omega)) (by omega) (by omega) (boolCode_lt fic) (by decide)
  refine ⟨hb, ?_⟩
  rw [decodeNat_type27 _ r1]
  have h1 : addr.toNat / 4096 * 4096 + addr.toNat % 4096 = addr.toNat := by omega
  simp [decodeType27, f1, f2, f3, f4, boolCode_beq, h1]

theorem RoundTrip.callFlagIn (addr : Addr) (fic : Bool) : RoundTrip.Statement (.callFlagIn addr fic) := by
  intro hwf
  have h_addr := addr.isLt
  refine decode_encode_of _ rfl fun w hw => ?_
  obtain ⟨r1, f1, f2, f3, f4, hb⟩ := word_type27 (r := addr.toNat % 4096) (q := addr.toNat / 4096) (f := boolCode
      fic) (s := 1) (hw.trans (by
    show 0x030001 + addr.toNat % 4096 * 16 + addr.toNat / 4096 * 4 + boolCode fic * 2 = _
    omega)) (by omega) (by omega) (boolCode_lt fic) (by decide)
  refine ⟨hb, ?_⟩
  rw [decodeNat_type27 _ r1]
  have h1 : addr.toNat / 4096 * 4096 + addr.toNat % 4096 = addr.toNat := by omega
  simp [decodeType27, f1, f2, f3, f4, boolCode_beq, h1]

theorem RoundTrip.flagOut (f2 : FlagOp) (f1 : FlagOp) (f0 : FlagOp) (fo : FlagOp) (c : Cond) : RoundTrip.Statement
    (.flagOut f2 f1 f0 fo c) := by
  intro hwf
  have h_f2 := f2.code_lt
  have h_f1 := f1.code_lt
  have h_f0 := f0.code_lt
  have h_fo := fo.code_lt
  have h_c := c.code_lt
  refine decode_encode_of _ rfl fun w hw => ?_
  replace hw : w = 0x020000 + f2.code * 1024 + f1.code * 256 + f0.code * 64 + fo.code * 16 + c.code := hw
  refine ⟨by omega, ?_⟩
  rw [decodeNat_type28 w (by omega)]
  have t1 : w / 1024 % 4 = f2.code := by omega
  have t2 : w / 256 % 4 = f1.code := by omega
  have t3 : w / 64 % 4 = f0.code := by omega
  have t4 : w / 16 % 4 = fo.code := by omega
  have t5 : w % 16 = c.code := by omega
  have t6 : w / 32768 % 2 = 0 := by omega
  have t7 : w / 4096 % 8 = 0 := by omega
  simp [decodeType28, t1, t2, t3, t4, t5, t6, t7, Cond.ofCode_code, FlagOp.ofCode_code]

theorem RoundTrip.idle : RoundTrip.Statement .idle := fun _ => rfl

theorem RoundTrip.idleSlow (n : SlowDiv) : RoundTrip.Statement (.idleSlow n) := by
  intro hwf
  have h_n := n.code_lt
  have p_n := n.code_pos
  refine decode_encode_of _ rfl fun w hw => ?_
  replace hw : w = 0x028000 + n.code := hw
  refine ⟨by omega, ?_⟩
  rw [decodeNat_type28 w (by omega)]
  have t1 : w % 16 = n.code := by omega
  have t2 : w / 32768 % 2 = 1 := by omega
  have t3 : w / 16 % 2048 = 0 := by omega
  have h1 : n.code ≠ 0 := by omega
  simp [decodeType28, t1, t2, t3, SlowDiv.ofCode_code, h1, Decoded.ofOption]

theorem RoundTrip.ioRead (addr : BitVec 11) (d : Dreg) : RoundTrip.Statement (.ioRead addr d) := by
  intro hwf
  have h_addr := addr.isLt
  have h_d := d.code_lt
  refine decode_encode_of _ rfl fun w hw => ?_
  replace hw : w = 0x010000 + addr.toNat * 16 + d.code := hw
  refine ⟨by omega, ?_⟩
  rw [decodeNat_type29 w (by omega)]
  have t1 : w / 16 % 2048 = addr.toNat := by omega
  have t2 : w % 16 = d.code := by omega
  have t3 : w / 32768 % 2 = 0 := by omega
  simp [decodeType29, t1, t2, t3, Dreg.ofCode_code]

theorem RoundTrip.ioWrite (addr : BitVec 11) (d : Dreg) : RoundTrip.Statement (.ioWrite addr d) := by
  intro hwf
  have h_addr := addr.isLt
  have h_d := d.code_lt
  refine decode_encode_of _ rfl fun w hw => ?_
  replace hw : w = 0x018000 + addr.toNat * 16 + d.code := hw
  refine ⟨by omega, ?_⟩
  rw [decodeNat_type29 w (by omega)]
  have t1 : w / 16 % 2048 = addr.toNat := by omega
  have t2 : w % 16 = d.code := by omega
  have t3 : w / 32768 % 2 = 1 := by omega
  simp [decodeType29, t1, t2, t3, Dreg.ofCode_code]

theorem RoundTrip.nop : RoundTrip.Statement .nop := fun _ => rfl

theorem RoundTrip.type22 (low : BitVec 16) : RoundTrip.Statement (.type22 low) := by
  intro hwf
  have h_low := low.isLt
  refine decode_encode_of _ rfl fun w hw => ?_
  replace hw : w = 0x080000 + low.toNat := hw
  refine ⟨by omega, ?_⟩
  rw [decodeNat_type22 w (by omega)]
  have t1 : w % 65536 = low.toNat := by omega
  simp [t1]

end Laws

end Sys2Proof
end

