-- ==== Sys2Proof/Laws/Shift.lean ====
section
/-!
SUPPORT. The shifter array bit by bit, the exponent detector against the size of the number, and the shifter functions committed
to a state.
-/

namespace Sys2Proof.Machine

/-! ### Bits of an integer -/

/-- Two floor divisions by powers of two are one. -/
theorem div_pow_div_pow (v : Int) (a b : Nat) : v / 2 ^ a / 2 ^ b = v / 2 ^ (a + b) := by
  rw [pow_add, Int.ediv_ediv, if_neg (fun h => absurd h.1 (not_lt.mpr (by positivity))), sub_zero]

/-- Bit `k` of an integer, two's complement without end. -/
def intBit (v : Int) (k : Nat) : Bool := decide (v / 2 ^ k % 2 = 1)

theorem getLsbD_ofInt_intBit (w : Nat) (v : Int) (k : Nat) (h : k < w) : (BitVec.ofInt w v).getLsbD k = intBit v k := by
  have hr : 0 ≤ v % 2 ^ w := Int.emod_nonneg _ (by positivity)
  have hn : ((BitVec.ofInt w v).toNat : Int) = v % 2 ^ w := by
    rw [BitVec.toNat_ofInt]
    exact_mod_cast Int.toNat_of_nonneg hr
  have e : v / 2 ^ k % 2 = (v % 2 ^ w) / 2 ^ k % 2 := by
    conv_lhs => rw [← Int.emod_add_mul_ediv v (2 ^ w)]
    have hw : (2 : Int) ^ w = 2 ^ k * (2 * 2 ^ (w - k - 1)) := by
      rw [← pow_succ', ← pow_add]; congr 1; omega
    rw [hw, mul_assoc, Int.add_mul_ediv_left _ _ (by positivity : (2 : Int) ^ k ≠ 0), mul_assoc, Int.add_mul_emod_self_left]
  unfold intBit
  rw [e, ← hn, BitVec.getLsbD, Nat.testBit_eq_decide_div_mod_eq, decide_eq_decide]
  norm_cast

theorem intBit_mul_low (v : Int) {p k : Nat} (h : k < p) : intBit (v * 2 ^ p) k = false := by
  have e : v * 2 ^ p = v * (2 * 2 ^ (p - k - 1)) * 2 ^ k := by
    rw [mul_assoc, mul_assoc, ← pow_add, ← pow_succ']; congr 2; omega
  unfold intBit
  rw [e, Int.mul_ediv_cancel _ (by positivity : (2 : Int) ^ k ≠ 0), decide_eq_false_iff_not, mul_left_comm]
  omega

theorem intBit_mul_high (v : Int) {p k : Nat} (h : p ≤ k) : intBit (v * 2 ^ p) k = intBit v (k - p) := by
  have e : k = p + (k - p) := by omega
  unfold intBit
  rw [e, ← div_pow_div_pow, Int.mul_ediv_cancel _ (by positivity), ← e]

theorem intBit_div (v : Int) (q k : Nat) : intBit (v / 2 ^ q) k = intBit v (k + q) := by
  unfold intBit
  rw [div_pow_div_pow, Nat.add_comm]

/-- The bits of a word extended to the left with `x`. -/
theorem intBit_word (a : Word) (x : Bool) (k : Nat) :
    intBit (if x then (a.toNat : Int) - 65536 else a.toNat) k = if k < 16 then a.getLsbD k else x := by
  have ha := a.isLt
  by_cases hk : k < 16
  · rw [if_pos hk, BitVec.getLsbD, Nat.testBit_eq_decide_div_mod_eq]
    unfold intBit
    rw [decide_eq_decide]
    generalize a.toNat = n at *
    have e : (if x then (n : Int) - 65536 else n) / 2 ^ k % 2 = ((n / 2 ^ k % 2 : Nat) : Int) := by
      interval_cases k <;> cases x <;> simp <;> omega
    rw [e]
    norm_cast
  · rw [if_neg hk]
    unfold intBit
    have h2 : (65536 : Int) ≤ 2 ^ k := by
      calc (65536 : Int) = 2 ^ 16 := by norm_num
        _ ≤ 2 ^ k := pow_le_pow_right₀ (by norm_num) (by omega)
    cases x
    · have : (a.toNat : Int) / 2 ^ k = 0 := Int.ediv_eq_zero_of_lt (by omega) (by omega)
      simp [this]
    · have : ((a.toNat : Int) - 65536) / 2 ^ k = -1 := by
        rw [Int.ediv_eq_iff_of_pos (by omega)]
        omega
      simp [this]

/-! ### The shifter array -/

/-- Every bit of the shifter array's output (42_shifter.md R321). -/
theorem shiftArray_bit (inp : Word) (c : Int) (hi x : Bool) (k : Nat) (h : k < 32) :
    (shiftArray inp c hi x).getLsbD k = shiftedBit inp (c + if hi then 16 else 0) x k := by
  have hp : (c + if hi then 16 else 0) = if hi then c + 16 else c := by cases hi <;> simp
  rw [hp]
  unfold shiftArray
  simp only
  generalize (if hi then c + 16 else c) = p
  rw [getLsbD_ofInt_intBit 32 _ k h]
  unfold shiftedBit
  by_cases h0 : 0 ≤ p
  · rw [if_pos h0]
    by_cases hk : (k : Int) < p
    · rw [if_pos hk, intBit_mul_low _ (by omega)]
    · rw [if_neg hk, intBit_mul_high _ (by omega), intBit_word]
      have e : ((k : Int) - p).toNat = k - p.toNat := by omega
      rw [e]
      by_cases h16 : (k : Int) < p + 16
      · rw [if_pos h16, if_pos (by omega)]
      · rw [if_neg h16, if_neg (by omega)]
  · have hk : ¬(k : Int) < p := by omega
    rw [if_neg h0, intBit_div, intBit_word, if_neg hk]
    have e : ((k : Int) - p).toNat = k + (-p).toNat := by omega
    rw [e]
    by_cases h16 : (k : Int) < p + 16
    · rw [if_pos h16, if_pos (by omega)]
    · rw [if_neg h16, if_neg (by omega)]

/-! ### The exponent detector -/

/-- What the leading count is: so many bits from the top equal `b`, and the next one differs. -/
theorem leadFrom_eq (v : Word) (b : Bool) (k m : Nat) (hm : m ≤ k) (h : ∀ j, j < m → v.getLsbD (k - 1 - j) = b)
    (hn : m < k → v.getLsbD (k - 1 - m) = !b) : leadFrom v b k = m := by
  induction k generalizing m with
  | zero => simp [leadFrom]; omega
  | succ k ih =>
    unfold leadFrom
    cases m with
    | zero =>
      have := hn (by omega)
      simp at this
      simp [this]
    | succ m =>
      have h0 := h 0 (by omega)
      simp at h0
      rw [if_pos (by simp [h0])]
      rw [ih m (by omega) (fun j hj => by have := h (j + 1) (by omega); rwa [show k + 1 - 1 - (j + 1) = k - 1 - j by omega] at this)
        (fun hk => by have := hn (by omega); rwa [show k + 1 - 1 - (m + 1) = k - 1 - m by omega] at this)]

/-- The leading count has its property. -/
theorem leadFrom_spec (v : Word) (b : Bool) (k : Nat) :
    leadFrom v b k ≤ k ∧ (∀ j, j < leadFrom v b k → v.getLsbD (k - 1 - j) = b) ∧
      (leadFrom v b k < k → v.getLsbD (k - 1 - leadFrom v b k) = !b) := by
  induction k with
  | zero => simp [leadFrom]
  | succ k ih =>
    obtain ⟨h1, h2, h3⟩ := ih
    by_cases hb : v.getLsbD k = b
    · have e : leadFrom v b (k + 1) = leadFrom v b k + 1 := by simp [leadFrom, hb]
      rw [e]
      refine ⟨by omega, fun j hj => ?_, fun hk => ?_⟩
      · cases j with
        | zero => simpa using hb
        | succ j => rw [show k + 1 - 1 - (j + 1) = k - 1 - j by omega]; exact h2 j (by omega)
      · rw [show k + 1 - 1 - (leadFrom v b k + 1) = k - 1 - leadFrom v b k by omega]; exact h3 (by omega)
    · have e : leadFrom v b (k + 1) = 0 := by simp [leadFrom, hb]
      rw [e]
      refine ⟨by omega, fun j hj => by omega, fun _ => ?_⟩
      simp only [Nat.add_sub_cancel, Nat.sub_zero]
      cases hv : v.getLsbD k <;> cases b <;> simp_all

/-- Bit `k` of a word is bit `k` of its signed value. -/
theorem getLsbD_intBit (v : Word) (k : Nat) (h : k < 16) : v.getLsbD k = intBit v.toInt k := by
  have e := getLsbD_ofInt_intBit 16 v.toInt k h
  rwa [BitVec.ofInt_toInt] at e

theorem sign_toInt (v : Word) : v.getLsbD 15 = decide (v.toInt < 0) := by
  have h := BitVec.msb_eq_toInt (x := v)
  rw [BitVec.msb_eq_getLsbD_last] at h
  exact h

/-- The exponent of a word with `n` redundant sign bits (42_shifter.md R324). -/
theorem expHiOf_redundant (v : Word) (n : Nat) (h : RedundantSigns v n) : expHiOf v = -(n : Int) := by
  obtain ⟨h1, h2, h3, h4⟩ := h
  have hl : lead v (v.getLsbD 15) = n + 1 := by
    refine leadFrom_eq _ _ 16 (n + 1) (by omega) (fun j hj => ?_) (fun hk => ?_)
    · rw [getLsbD_intBit v _ (by omega), sign_toInt]
      have hp : (2 : Int) ^ (15 - n) ≤ 2 ^ (16 - 1 - j) := pow_le_pow_right₀ (by norm_num) (by omega)
      unfold intBit
      generalize v.toInt = V at *
      by_cases hV : V < 0
      · have : V / 2 ^ (16 - 1 - j) = -1 := by
          rw [Int.ediv_eq_iff_of_pos (by positivity)]
          omega
        simp [this, hV]
      · have : V / 2 ^ (16 - 1 - j) = 0 := Int.ediv_eq_zero_of_lt (by omega) (by omega)
        simp [this, hV]
    · rw [getLsbD_intBit v _ (by omega), sign_toInt]
      have h4 := h4 (by omega)
      have e1 : 16 - 1 - (n + 1) = 14 - n := by omega
      have e2 : (2 : Int) ^ (15 - n) = 2 * 2 ^ (14 - n) := by rw [← pow_succ']; congr 1; omega
      rw [e1]
      rw [e2] at h2 h3
      have hpos : (0 : Int) < 2 ^ (14 - n) := by positivity
      unfold intBit
      generalize (2 : Int) ^ (14 - n) = q at *
      generalize v.toInt = V at *
      by_cases hV : V < 0
      · have : V / q = -2 := by
          rw [Int.ediv_eq_iff_of_pos hpos]
          omega
        simp [this, hV]
      · have : V / q = 1 := by
          rw [Int.ediv_eq_iff_of_pos hpos]
          omega
        simp [this, hV]
  unfold expHiOf
  rw [hl]
  push_cast
  ring

/-! ### Committed to a state -/

/-- A bank replaced, ASTAT kept. -/
theorem setBank_commit (s : State) (b : Bank) : s.setBank b = s.commit b s.st.astat := by
  unfold State.commit State.setBank
  split <;> rfl

theorem setSeSs_commit (s : State) (e : BitVec 8) (ss : Bool) :
    s.setSeSs e ss = s.commit { s.bank with se := e } (putBit s.st.astat 7 ss) := rfl

/-- A state whose bank and ASTAT are those of a shift. -/
theorem shiftDone_of (s t : State) (orSr : Bool) (inp : Word) (c : Int) (hi x : Bool)
    (hb : t.bank = (s.shiftOut orSr (shiftArray inp c hi x)).bank) (ha : t.st.astat = s.st.astat) :
    ShiftDone s t orSr inp (c + if hi then 16 else 0) x := by
  have hb' : t.bank = s.bank.setSr orSr (shiftArray inp c hi x) := by rw [hb]; simp [State.shiftOut]
  refine ⟨fun k hk => ?_, ?_, ha⟩
  · have hs : t.bank.sr = if orSr then shiftArray inp c hi x ||| s.bank.sr else shiftArray inp c hi x := by
      rw [hb']
      generalize shiftArray inp c hi x = w
      simp only [Bank.setSr, Bank.sr]
      apply BitVec.eq_of_getLsbD_eq
      intro j hj
      rw [BitVec.getLsbD_append]
      simp only [BitVec.getLsbD_extractLsb']
      by_cases h16 : j < 16
      · simp [h16]
      · simp [h16, show j - 16 < 16 by omega, show 16 + (j - 16) = j by omega]
    rw [hs, ← shiftArray_bit inp c hi x k hk]
    cases orSr <;> simp
  · rw [hb']
    rfl

/-- A state whose bank and ASTAT are those of EXP with a value of SE and of SS. -/
theorem expDone_of (s t : State) (e : Int) (ss : Bool) (hb : t.bank = { s.bank with se := BitVec.ofInt 8 e })
    (ha : t.st.astat = putBit s.st.astat 7 ss) : ExpDone s t e ss := by
  refine ⟨hb, ?_, fun k hk => ?_⟩
  · simp only [astatSS, ha, getLsbD_putBit]
    rfl
  · simp only [ha, getLsbD_putBit]
    rw [if_neg (by omega)]

end Sys2Proof.Machine
end

