-- ==== Sys2Proof/Laws/Stack.lean ====
section
/-!
SUPPORT. What a push, a pop and an open stack can be: each keeps as many entries as the excess says, never more than the
depth (10_state.md R64 to R66).
-/

namespace Sys2Proof.Machine

theorem Stack.ok_iff {α : Type} (k : Stack α) (depth : Nat) :
    k.ok depth = true ↔ k.entries.length = min k.n.toNat depth := by simp [Stack.ok]

@[simp] theorem Stack.empty_ok {α : Type} (depth : Nat) : (Stack.empty : Stack α).ok depth = true := by
  simp [Stack.ok, Stack.empty]

/-- A push keeps the form. -/
theorem Stack.push_ok {α : Type} {k : Stack α} {depth : Nat} (h : k.ok depth = true) (v : α) :
    (k.push depth v).ok depth = true := by
  rw [Stack.ok_iff] at *
  unfold Stack.push
  split
  · rw [h]; dsimp only; omega
  · split
    · rw [List.length_cons, h]; dsimp only; omega
    · rw [h]; dsimp only; omega

/-- A pop keeps the form. -/
theorem Stack.pop_ok {α : Type} {k : Stack α} {depth : Nat} (h : k.ok depth = true) : (k.pop depth).ok depth = true := by
  rw [Stack.ok_iff] at *
  unfold Stack.pop
  split
  · rw [h]; dsimp only; omega
  · split
    · rw [h]; dsimp only; omega
    · rw [List.length_tail, h]; dsimp only; omega

/-- A stack of any contents has the form. -/
@[simp] theorem Stack.any_ok {α : Type} (depth : Nat) (n : Int) (ovf : Bool) (entry : Nat → α) :
    (Stack.any depth n ovf entry).ok depth = true := by
  simp [Stack.ok, Stack.any]

/-- The two bits of SSTAT a stack gives are no part of the form. -/
@[simp] theorem Stack.withBits_ok {α : Type} (k : Stack α) (depth : Nat) (empty ovf : Bool) :
    (k.withBits empty ovf).ok depth = k.ok depth := rfl

/-- The bits given are the bits read. -/
@[simp] theorem Stack.withBits_emptyBit {α : Type} (k : Stack α) (empty ovf : Bool) :
    (k.withBits empty ovf).emptyBit = empty := by
  unfold Stack.withBits Stack.emptyBit Stack.isEmpty
  cases decide (k.n ≤ 0) <;> cases empty <;> rfl

@[simp] theorem Stack.withBits_ovf {α : Type} (k : Stack α) (empty ovf : Bool) : (k.withBits empty ovf).ovf = ovf := rfl

/-- A stack with entries that is not overflowed has its first entry on top. -/
theorem Stack.top_cons {α : Type} {k : Stack α} {depth : Nat} {v : α} {rest : List α} (h : k.entries = v :: rest)
    (hpos : 0 < k.n) (hle : k.n ≤ depth) (free : α) : k.top depth free = v := by
  have h0 : ¬k.n ≤ 0 := by omega
  have h1 : ¬(depth : Int) < k.n := by omega
  simp [Stack.top, h0, h1, h]

/-- A pop of such a stack removes that entry. -/
theorem Stack.pop_cons {α : Type} {k : Stack α} {depth : Nat} {v : α} {rest : List α} (h : k.entries = v :: rest)
    (hpos : 0 < k.n) (hle : k.n ≤ depth) :
    k.pop depth = { k with entries := rest, n := k.n - 1, flip := false } := by
  have h0 : ¬k.n ≤ 0 := by omega
  have h1 : ¬(depth : Int) < k.n := by omega
  simp [Stack.pop, h0, h1, h]

/-- The top and the pop of an empty stack. -/
theorem Stack.top_empty {α : Type} {k : Stack α} (h : k.n ≤ 0) (depth : Nat) (free : α) : k.top depth free = free := by
  unfold Stack.top
  rw [if_pos h]

theorem Stack.pop_empty {α : Type} {k : Stack α} (h : k.n ≤ 0) (depth : Nat) :
    k.pop depth = { k with n := k.n - 1, flip := false } := by
  unfold Stack.pop
  rw [if_pos h]

end Sys2Proof.Machine
end

