-- ==== Sys2Proof/Laws/Store.lean ====
section
/-!
SUPPORT. What the writes of memory, of control registers and of registers can change, and the shared operations on interrupts.
-/

namespace Sys2Proof.Machine

/-! ### Memory -/

/-- A Program Memory write changes memory alone. -/
theorem writePm_eq (s : State) (a : Addr) (w : PmWord) : s.writePm a w = { s with mem := (s.writePm a w).mem } := by
  unfold State.writePm
  split <;> rfl

/-- A Data Memory write below the control registers changes memory alone. -/
theorem writeRam_eq (s : State) (a : Addr) (v : Word) : s.writeRam a v = { s with mem := (s.writeRam a v).mem } := by
  unfold State.writeRam
  split <;> rfl

theorem wf_writePm {s : State} (h : Memory.wf s.mem = true) (a : Addr) (w : PmWord) :
    Memory.wf (s.writePm a w).mem = true := by
  unfold State.writePm
  split
  · unfold State.pmPut
    split
    · exact wf_memSet16 h _ _
    · exact wf_memSet24 h _ _
  · exact h

theorem wf_writeRam {s : State} (h : Memory.wf s.mem = true) (a : Addr) (v : Word) :
    Memory.wf (s.writeRam a v).mem = true := by
  unfold State.writeRam
  split
  · exact wf_memSet16 h _ _
  · exact h

/-! ### Control registers -/

/-- A control register write leaves the registers, the sequencer, the status registers and memory as they are; of the one-cycle
actions it starts PDFORCE and the TCOUNT mark. -/
structure MmrFrame (s t : State) : Prop where
  cfg : t.cfg = s.cfg
  pri : t.pri = s.pri
  sec : t.sec = s.sec
  dag : t.dag = s.dag
  px : t.px = s.px
  seq : t.seq = s.seq
  st : t.st = s.st
  lat : t.lat = { s.lat with pdNew := t.lat.pdNew, tcountSet := t.lat.tcountSet }
  mem : t.mem = s.mem
  io : t.io = s.io
  freeCtr : t.freeCtr = s.freeCtr
  clock : t.clock = s.clock
  env : t.env = s.env

theorem writeMmr_frame (s : State) (k : Nat) (v : Word) : MmrFrame s (s.writeMmr k v) := by
  unfold State.writeMmr State.writeBdmaAddr State.writeBwcount State.writeSysCtl
  split
  case h_8 => split <;> constructor <;> rfl
  all_goals constructor <;> rfl

/-- A Data Memory write leaves the registers, the sequencer and the status registers as they are. -/
theorem writeDm_seq (s : State) (a : Addr) (v : Word) : (s.writeDm a v).seq = s.seq := by
  unfold State.writeDm
  split
  · exact (writeMmr_frame _ _ _).seq
  · rw [writeRam_eq]

theorem writeDm_cfg (s : State) (a : Addr) (v : Word) : (s.writeDm a v).cfg = s.cfg := by
  unfold State.writeDm
  split
  · exact (writeMmr_frame _ _ _).cfg
  · rw [writeRam_eq]

theorem writeDm_st (s : State) (a : Addr) (v : Word) : (s.writeDm a v).st = s.st := by
  unfold State.writeDm
  split
  · exact (writeMmr_frame _ _ _).st
  · rw [writeRam_eq]

theorem wf_writeDm {s : State} (h : Memory.wf s.mem = true) (a : Addr) (v : Word) :
    Memory.wf (s.writeDm a v).mem = true := by
  unfold State.writeDm
  split
  · rw [(writeMmr_frame _ _ _).mem]; exact h
  · exact wf_writeRam h _ _

/-! ### Registers -/

theorem setBank_eq (s : State) (b : Bank) : s.setBank b = { s with pri := (s.setBank b).pri, sec := (s.setBank b).sec } := by
  unfold State.setBank
  split <;> rfl

theorem setSport_eq (s : State) (n : Fin 2) (p : Sport) :
    s.setSport n p = { s with sp0 := (s.setSport n p).sp0, sp1 := (s.setSport n p).sp1 } := by
  unfold State.setSport
  split <;> rfl

/-- A register load leaves memory as it is. -/
@[simp] theorem load_mem (s : State) (r : Reg) (v : Word) : (s.load r v).mem = s.mem := by
  cases r <;> simp only [State.load, State.loadDreg, State.setI, State.setM, State.setL, State.setAstat, State.writeCntr,
    State.overwriteCntr] <;> first
    | rfl
    | rw [setBank_eq]
    | rw [setSport_eq]
    | (split <;> rfl)

/-- A register load other than of CNTR and OWRCNTR leaves the sequencer as it is. -/
theorem load_seq (s : State) (r : Reg) (v : Word) (h1 : r ≠ .cntr) (h2 : r ≠ .owrcntr) : (s.load r v).seq = s.seq := by
  cases r <;> simp only [State.load, State.loadDreg, State.setI, State.setM, State.setL, State.setAstat] <;> first
    | rfl
    | exact absurd rfl h1
    | exact absurd rfl h2
    | rw [setBank_eq]

/-! ### Interrupts -/

/-- Taking an interrupt changes the sequencer, IMASK, the requests, the core state and the one-cycle actions. -/
theorem takeInterrupt_eq (s : State) (x : Source) : s.takeInterrupt x =
    { s with
      seq := (s.takeInterrupt x).seq
      st := { s.st with imask := entryMask (s.lat.icntlEff.getLsbD 4) s.st.imask x }
      irq := s.entryIrq x
      core := .running
      lat := (s.takeInterrupt x).lat } := by
  unfold State.takeInterrupt
  cases s.lat.popDue <;> rfl

/-- The return from an interrupt changes the sequencer, the saved status registers and `pdSeq`. -/
theorem returnInterrupt_eq (s : State) : s.returnInterrupt =
    { s with
      seq := { s.seq with
        pc := s.topPc, pcStk := s.seq.pcStk.pop pcDepth, stsStk := s.seq.stsStk.pop s.cfg.stsDepth }
      st := { s.st with astat := s.topSts.astat, mstat := s.topSts.mstat, imask := s.topSts.imask }
      irq := { s.irq with pdSeq := false }
      lat := { s.lat with use := { s.lat.use with pcStack := true, retPop := true } } } := by
  have h : s.popPc.topSts = s.topSts := rfl
  unfold State.returnInterrupt State.popSts
  rw [h]
  unfold State.popPc
  simp

end Sys2Proof.Machine
end

