-- ==== Sys2Proof/Tests/Slice0.lean ====
section
/-!
SUPPORT. Tests: the decoding of a word of every constructor, one step of every instruction on the vectors of
95_test_vectors.md (or, for an instruction that file gives none, on values worked out from its rule), ill-formed
    terms, and a
state that meets the hypotheses of each statement.
-/

namespace Sys2Proof.Machine.Tests

/- One theorem after another: many at once, each on a thread of its own, take too much memory. -/
set_option Elab.async false

/-! ### Helpers -/

/-- The start of the vectors: the core runs at 0x0100 and nothing else happens. -/
def ready : State :=
  { State.reset with
    core := .running
    bdma := { State.reset.bdma with active := false }
    ctl := { State.reset.ctl with sysCtl := 0x0007 }
    seq := { Seq.reset with pc := 0x0100 } }

/-- The next state, if there is one. -/
def nextOf (r : Result) : Option State :=
  match r with
  | .next t => some t
  | _ => none

/-- The state after the instruction of a word. -/
def after (w : PmWord) (s : State) : Option State :=
  match decode w with
  | .instr i => nextOf (exec i s)
  | .reserved _ => none

/-- The PC stack with `n` entries and the status stack with one. -/
def stacked (n : Nat) : State :=
  { ready with seq := { ready.seq with
      pcStk := { entries := List.replicate n 0x0040, n := n, ovf := false, flip := false }
      stsStk := { entries := [{ astat := 5, mstat := 1, imask := 3 }], n := 1, ovf := false, flip := false } } }

/-- CNTR 1 over `n` counts. -/
def counted (n : Nat) : State :=
  { ready with seq := { ready.seq with
      cntr := 1, cntrValid := true, cntStk := { entries := List.replicate n 7, n := n, ovf := false, flip := false } } }

/-- The last instruction of a loop from 0x00F0. -/
def inLoopOf (term : Term) (count : Addr) : State :=
  { ready with seq := { ready.seq with
      cntr := count, cntrValid := true
      pcStk := { entries := [0x00F0], n := 1, ovf := false, flip := false }
      loopStk := { entries := [{ last := 0x0100, term := term, first := 0x00F0 }], n := 1, ovf := false, flip := false } } }

/-- Levels 9 and 0 ask. -/
def asking : State :=
  { ready with
    st := { ready.st with imask := 0x3FF }
    irq := { ready.irq with latch := 1, pins := 0x1FF } }

/-! ### Decoding: words written out bit by bit from the layouts of 30_encoding.md R163 to R190 -/

theorem test_decode_alu_add :
    decode 0b001001100001111000000111 = .instr (.aluPassZero .feedback .sr0 .notAv) ∧
    decode 0b001001100001011000000111 = .instr (.aluPassY .feedback .f .sr0 .notAv) ∧
    decode 0b001001100011111000000111 = .instr (.aluPassOne .feedback .sr0 .notAv) ∧
    decode 0b001001100011011000000111 = .instr (.aluIncY .feedback .f .sr0 .notAv) ∧
    decode 0b001001100101111000000111 = .instr (.aluXAddC .feedback .sr0 .notAv) ∧
    decode 0b001001100101011000000111 = .instr (.aluAddC .feedback .f .sr0 .notAv) ∧
    decode 0b001001100111111000000111 = .instr (.aluPassX .feedback .sr0 .notAv) ∧
    decode 0b001001100111011000000111 = .instr (.aluAdd .feedback .f .sr0 .notAv) := by decide

theorem test_decode_alu_sub :
    decode 0b001001101001111000000111 = .instr (.aluNotZero .feedback .sr0 .notAv) ∧
    decode 0b001001101001011000000111 = .instr (.aluNotY .feedback .f .sr0 .notAv) ∧
    decode 0b001001101010111000000111 = .instr (.aluNegY .feedback .y1 .sr0 .notAv) ∧
    decode 0b001001101101111000000111 = .instr (.aluXSubBorrow .feedback .sr0 .notAv) ∧
    decode 0b001001101101011000000111 = .instr (.aluSubBorrow .feedback .f .sr0 .notAv) ∧
    decode 0b001001101110111000000111 = .instr (.aluSub .feedback .y1 .sr0 .notAv) ∧
    decode 0b001001110001111000000111 = .instr (.aluPassNegOne .feedback .sr0 .notAv) ∧
    decode 0b001001110001011000000111 = .instr (.aluDecY .feedback .f .sr0 .notAv) ∧
    decode 0b001001110011111000000111 = .instr (.aluNegX .feedback .sr0 .notAv) ∧
    decode 0b001001110011011000000111 = .instr (.aluRsub .feedback .f .sr0 .notAv) ∧
    decode 0b001001110101111000000111 = .instr (.aluNegXBorrow .feedback .sr0 .notAv) ∧
    decode 0b001001110101011000000111 = .instr (.aluRsubBorrow .feedback .f .sr0 .notAv) := by decide

theorem test_decode_alu_logic :
    decode 0b001001110110111000000111 = .instr (.aluNotX .feedback .y1 .sr0 .notAv) ∧
    decode 0b001001111000111000000111 = .instr (.aluAnd .feedback .y1 .sr0 .notAv) ∧
    decode 0b001001111010111000000111 = .instr (.aluOr .feedback .y1 .sr0 .notAv) ∧
    decode 0b001001111100111000000111 = .instr (.aluXor .feedback .y1 .sr0 .notAv) ∧
    decode 0b001001111110111000000111 = .instr (.aluAbs .feedback .y1 .sr0 .notAv) := by decide

theorem test_decode_alu_const :
    decode 0b001001100001111001110111 = .instr (.aluPassConst .feedback ⟨13, true⟩ .sr0 .notAv) ∧
    decode 0b001001100011111001110111 = .instr (.aluPassConstInc .feedback ⟨13, true⟩ .sr0 .notAv) ∧
    decode 0b001001110001111001110111 = .instr (.aluPassConstDec .feedback ⟨13, true⟩ .sr0 .notAv) ∧
    decode 0b001001100101111001110111 = .instr (.aluAddConstC .feedback ⟨13, true⟩ .sr0 .notAv) ∧
    decode 0b001001100111111001110111 = .instr (.aluAddConst .feedback ⟨13, true⟩ .sr0 .notAv) ∧
    decode 0b001001101101111001110111 = .instr (.aluSubConstBorrow .feedback ⟨13, true⟩ .sr0 .notAv) ∧
    decode 0b001001101111111001110111 = .instr (.aluSubConst .feedback ⟨13, true⟩ .sr0 .notAv) ∧
    decode 0b001001110011111001110111 = .instr (.aluRsubConst .feedback ⟨13, true⟩ .sr0 .notAv) ∧
    decode 0b001001110101111001110111 = .instr (.aluRsubConstBorrow .feedback ⟨13, true⟩ .sr0 .notAv) ∧
    decode 0b001001111001111001110111 = .instr (.aluAndConst .feedback ⟨13, true⟩ .sr0 .notAv) ∧
    decode 0b001001111011111001110111 = .instr (.aluOrConst .feedback ⟨13, true⟩ .sr0 .notAv) ∧
    decode 0b001001111101111001110111 = .instr (.aluXorConst .feedback ⟨13, true⟩ .sr0 .notAv) ∧
    decode 0b001001101001111001110111 = .instr (.aluNotConst .feedback ⟨13, true⟩ .sr0 .notAv) ∧
    decode 0b001001101011111001110111 = .instr (.aluNegConst .feedback ⟨13, true⟩ .sr0 .notAv) := by decide

theorem test_decode_mac_mul :
    decode 0b001001000010011000010111 = .instr (.macSqRnd .feedback .sr0 .notAv) ∧
    decode 0b001001000010111000000111 = .instr (.macMulRnd .feedback .y1 .sr0 .notAv) ∧
    decode 0b001001000100011000010111 = .instr (.macAddSqRnd .feedback .sr0 .notAv) ∧
    decode 0b001001000101111000000111 = .instr (.macRnd .feedback .sr0 .notAv) ∧
    decode 0b001001000101011000000111 = .instr (.macAddRnd .feedback .f .sr0 .notAv) ∧
    decode 0b001001000110011000010111 = .instr (.macSubSqRnd .feedback .sr0 .notAv) ∧
    decode 0b001001000110111000000111 = .instr (.macSubRnd .feedback .y1 .sr0 .notAv) ∧
    decode 0b001001001000011000010111 = .instr (.macSqSS .feedback .sr0 .notAv) ∧
    decode 0b001001001001111000000111 = .instr (.macZero .feedback .sr0 .notAv) ∧
    decode 0b001001001001011000000111 = .instr (.macMulSS .feedback .f .sr0 .notAv) ∧
    decode 0b001001001010111000000111 = .instr (.macMulSU .feedback .y1 .sr0 .notAv) ∧
    decode 0b001001001100111000000111 = .instr (.macMulUS .feedback .y1 .sr0 .notAv) ∧
    decode 0b001001001110011000010111 = .instr (.macSqUU .feedback .sr0 .notAv) ∧
    decode 0b001001001110111000000111 = .instr (.macMulUU .feedback .y1 .sr0 .notAv) := by decide

theorem test_decode_mac_acc :
    decode 0b001001010000011000010111 = .instr (.macAddSqSS .feedback .sr0 .notAv) ∧
    decode 0b001001010001111000000111 = .instr (.macCopy .feedback .sr0 .notAv) ∧
    decode 0b001001010001011000000111 = .instr (.macAddSS .feedback .f .sr0 .notAv) ∧
    decode 0b001001010010111000000111 = .instr (.macAddSU .feedback .y1 .sr0 .notAv) ∧
    decode 0b001001010100111000000111 = .instr (.macAddUS .feedback .y1 .sr0 .notAv) ∧
    decode 0b001001010110011000010111 = .instr (.macAddSqUU .feedback .sr0 .notAv) ∧
    decode 0b001001010110111000000111 = .instr (.macAddUU .feedback .y1 .sr0 .notAv) ∧
    decode 0b001001011000011000010111 = .instr (.macSubSqSS .feedback .sr0 .notAv) ∧
    decode 0b001001011000111000000111 = .instr (.macSubSS .feedback .y1 .sr0 .notAv) ∧
    decode 0b001001011010111000000111 = .instr (.macSubSU .feedback .y1 .sr0 .notAv) ∧
    decode 0b001001011100111000000111 = .instr (.macSubUS .feedback .y1 .sr0 .notAv) ∧
    decode 0b001001011110011000010111 = .instr (.macSubSqUU .feedback .sr0 .notAv) ∧
    decode 0b001001011110111000000111 = .instr (.macSubUU .feedback .y1 .sr0 .notAv) ∧
    decode 0b001000000000000000000111 = .instr (.condNop .notAv) := by decide

theorem test_decode_compute_move :
    decode 0b001010111100111010101010 = .instr (.aluNone .xor .y1 .sr0) ∧
    decode 0b001010000000000011110101 = .instr (.moveDreg .sr1 .ay1) ∧
    decode 0b001011111100111011110101 = .instr (.aluMove .feedback .xor .y1 .sr0 .sr1 .ay1) ∧
    decode 0b001011011100111011110101 = .instr (.macMove .feedback .subUS .y1 .sr0 .sr1 .ay1) ∧
    decode 0b111110000000000011011001 = .instr (.dualRead .my1 .mx0 3 1 2 1) ∧
    decode 0b111110111100111011011001 = .instr (.compDualRead .my1 .mx0 (.alu .xor .y1 .sr0) 3 1 2 1) := by decide

theorem test_decode_memory :
    decode 0b011100000000000011001001 = .instr (.loadDm true .mr1 2 1) ∧
    decode 0b011101111100111011001001 = .instr (.compLoadDm true .feedback (.alu .xor .y1 .sr0) .mr1 2 1) ∧
    decode 0b011110000000000011001001 = .instr (.storeDm true .mr1 2 1) ∧
    decode 0b011111111100111011001001 = .instr (.compStoreDm true .feedback (.alu .xor .y1 .sr0) .mr1 2 1) ∧
    decode 0b010100000000000011001001 = .instr (.loadPm .mr1 2 1) ∧
    decode 0b010101111100111011001001 = .instr (.compLoadPm .feedback (.alu .xor .y1 .sr0) .mr1 2 1) ∧
    decode 0b010110000000000011001001 = .instr (.storePm .mr1 2 1) ∧
    decode 0b010111111100111011001001 = .instr (.compStorePm .feedback (.alu .xor .y1 .sr0) .mr1 2 1) ∧
    decode 0b101110100101110000111001 = .instr (.storeDmImm true 0xA5C3 2 1) := by decide

theorem test_decode_direct :
    decode 0b100011101011010111010011 = .instr (.loadReg .imask 0x2B5D) ∧
    decode 0b100110101011010111010101 = .instr (.storeReg (.m 5) 0x2B5D) ∧
    decode 0b010010100101110000111100 = .instr (.loadDregImm 0xA5C3 .mr1) ∧
    decode 0b001101101011010111011110 = .instr (.loadPmovlay 0x2B5D) ∧
    decode 0b001101101011010111011111 = .instr (.loadDmovlay 0x2B5D) ∧
    decode 0b001111101011010111011100 = .instr (.loadRegImm .ifc 0x2B5D) ∧
    decode 0b000110101011010111010111 = .instr (.jump 0x2B5D .notAv) ∧
    decode 0b000111101011010111010111 = .instr (.call 0x2B5D .notAv) ∧
    decode 0b000101101011010111011100 = .instr (.doUntil 0x2B5D .notMv) := by decide

theorem test_decode_shift_moves :
    decode 0b000100110101110111001001 = .instr (.shiftLoadDm true .normLoOr .mr2 .mr1 2 1) ∧
    decode 0b000100111101110111001001 = .instr (.shiftStoreDm true .normLoOr .mr2 .mr1 2 1) ∧
    decode 0b000100010101110111001001 = .instr (.shiftLoadPm .normLoOr .mr2 .mr1 2 1) ∧
    decode 0b000100011101110111001001 = .instr (.shiftStorePm .normLoOr .mr2 .mr1 2 1) ∧
    decode 0b000100000101110111110101 = .instr (.shiftMove .normLoOr .mr2 .sr1 .ay1) := by decide

theorem test_decode_shift_imm :
    decode 0b000011110000010111111011 = .instr (.lshiftImmHi .mr2 0xFB) ∧
    decode 0b000011110000110111111011 = .instr (.lshiftImmHiOr .mr2 0xFB) ∧
    decode 0b000011110001010111111011 = .instr (.lshiftImmLo .mr2 0xFB) ∧
    decode 0b000011110001110111111011 = .instr (.lshiftImmLoOr .mr2 0xFB) ∧
    decode 0b000011110010010111111011 = .instr (.ashiftImmHi .mr2 0xFB) ∧
    decode 0b000011110010110111111011 = .instr (.ashiftImmHiOr .mr2 0xFB) ∧
    decode 0b000011110011010111111011 = .instr (.ashiftImmLo .mr2 0xFB) ∧
    decode 0b000011110011110111111011 = .instr (.ashiftImmLoOr .mr2 0xFB) := by decide

theorem test_decode_shift_cond :
    decode 0b000011100000010100000111 = .instr (.lshiftHi .mr2 .notAv) ∧
    decode 0b000011100000110100000111 = .instr (.lshiftHiOr .mr2 .notAv) ∧
    decode 0b000011100001010100000111 = .instr (.lshiftLo .mr2 .notAv) ∧
    decode 0b000011100001110100000111 = .instr (.lshiftLoOr .mr2 .notAv) ∧
    decode 0b000011100010010100000111 = .instr (.ashiftHi .mr2 .notAv) ∧
    decode 0b000011100010110100000111 = .instr (.ashiftHiOr .mr2 .notAv) ∧
    decode 0b000011100011010100000111 = .instr (.ashiftLo .mr2 .notAv) ∧
    decode 0b000011100011110100000111 = .instr (.ashiftLoOr .mr2 .notAv) ∧
    decode 0b000011100100010100000111 = .instr (.normHi .mr2 .notAv) ∧
    decode 0b000011100100110100000111 = .instr (.normHiOr .mr2 .notAv) ∧
    decode 0b000011100101010100000111 = .instr (.normLo .mr2 .notAv) ∧
    decode 0b000011100101110100000111 = .instr (.normLoOr .mr2 .notAv) ∧
    decode 0b000011100110010100000111 = .instr (.expHi .mr2 .notAv) ∧
    decode 0b000011100110110100000111 = .instr (.expHix .mr2 .notAv) ∧
    decode 0b000011100111010100000111 = .instr (.expLo .mr2 .notAv) ∧
    decode 0b000011100111110100000111 = .instr (.expAdj .mr2 .notAv) := by decide

theorem test_decode_moves :
    decode 0b000011010000110111111010 = .instr (.pushTop (.l 2)) ∧
    decode 0b000011010000101100101111 = .instr (.popTop (.i 6)) ∧
    decode 0b000011010000110010111110 = .instr (.moveReg .tx1 (.d .sr0)) ∧
    decode 0b000011001110011110110000 = .instr (.modeControl .enable .disable .keep1 .enable .disable .enable .keep0) := by decide

theorem test_decode_flow :
    decode 0b000010110000000010000111 = .instr (.jumpInd 2 .notAv) ∧
    decode 0b000010110000000010010111 = .instr (.callInd 2 .notAv) ∧
    decode 0b000010100000000000000111 = .instr (.rts .notAv) ∧
    decode 0b000010100000000000010111 = .instr (.rti .notAv) ∧
    decode 0b000010010000000000011001 = .instr (.modify true 2 1) := by decide

theorem test_decode_divide_sat :
    decode 0b000001110001011000000000 = .instr (.divq .sr0) ∧
    decode 0b000001100000111000000000 = .instr (.divs .ay1 .sr0) ∧
    decode 0b000001010000000000000000 = .instr .satMr := by decide

theorem test_decode_control :
    decode 0b000001000000000001100000 = .instr .enaInts ∧
    decode 0b000001000000000001000000 = .instr .disInts ∧
    decode 0b000001000000000000010110 = .instr (.stackControl false true false true .push) ∧
    decode 0b000000111011010111011010 = .instr (.jumpFlagIn 0x2B5D true) ∧
    decode 0b000000111011010111011011 = .instr (.callFlagIn 0x2B5D true) ∧
    decode 0b000000100000110110000111 = .instr (.flagOut .set .toggle .reset .keep .notAv) ∧
    decode 0b000000101000000000000000 = .instr .idle ∧
    decode 0b000000101000000000000100 = .instr (.idleSlow .by64) := by decide

theorem test_decode_io :
    decode 0b000000010110101101011100 = .instr (.ioRead 0x6B5 .mr1) ∧
    decode 0b000000011110101101011100 = .instr (.ioWrite 0x6B5 .mr1) ∧
    decode 0b000000000000000000000000 = .instr .nop ∧
    decode 0b000010001010010111000011 = .instr (.type22 0xA5C3) := by decide

/-! ### One instruction -/

/-- `AR = PASS 0` -/
theorem test_aluPassZero :
    (after 0x22180F { ready with pri := { Bank.reset with ar := 0x1234 } }).map
      (fun t => (t.pri.ar, t.st.astat)) = some (0x0, 0x1) := by decide

/-- `AR = PASS AY0` -/
theorem test_aluPassY :
    (after 0x22000F { ready with
        pri := { Bank.reset with ay0 := 0x0 }
        st := { ready.st with astat := 0xE } }).map
      (fun t => (t.pri.ar, t.st.astat)) = some (0x0, 0x1) := by decide

/-- `AR = PASS 1` -/
theorem test_aluPassOne :
    (after 0x22380F ready).map (fun t => (t.pri.ar, t.st.astat)) = some (0x1, 0x0) := by decide

/-- `AR = AY0 + 1` -/
theorem test_aluIncY :
    (after 0x22200F { ready with pri := { Bank.reset with ay0 := 0x7FFF } }).map
      (fun t => (t.pri.ar, t.st.astat)) = some (0x8000, 0x6) := by decide

/-- `AR = AX0 + C` -/
theorem test_aluXAddC :
    (after 0x22580F { ready with
        pri := { Bank.reset with ax0 := 0x7FFF }
        st := { ready.st with astat := 0x8 } }).map
      (fun t => (t.pri.ar, t.st.astat)) = some (0x8000, 0x6) := by decide

/-- `AR = AX1 + AY1 + C` -/
theorem test_aluAddC :
    (after 0x22490F { ready with
        pri := { Bank.reset with ax1 := 0x1, ay1 := 0xFFFF }
        st := { ready.st with astat := 0x8 } }).map
      (fun t => (t.pri.ar, t.st.astat)) = some (0x1, 0x8) := by decide

/-- `AR = PASS AX0` -/
theorem test_aluPassX :
    (after 0x22780F { ready with
        pri := { Bank.reset with ax0 := 0x8000 }
        st := { ready.st with astat := 0xC } }).map
      (fun t => (t.pri.ar, t.st.astat)) = some (0x8000, 0x2) := by decide

/-- `AR = AX0 + AY0` -/
theorem test_aluAdd :
    (after 0x22600F { ready with pri := { Bank.reset with ax0 := 0x7000, ay0 := 0x7000 } }).map
      (fun t => (t.pri.ar, t.st.astat)) = some (0xE000, 0x6) := by decide

/-- `AR = AX0 + AY0` -/
theorem test_aluAdd_2 :
    (after 0x22600F { ready with
        pri := { Bank.reset with ax0 := 0x8000, ay0 := 0x8000 }
        st := { ready.st with mstat := 0x8 } }).map
      (fun t => (t.pri.ar, t.st.astat)) = some (0x8000, 0xD) := by decide

/-- `AR = NOT 0` -/
theorem test_aluNotZero :
    (after 0x22980F ready).map (fun t => (t.pri.ar, t.st.astat)) = some (0xFFFF, 0x2) := by decide

/-- `AR = NOT AY0` -/
theorem test_aluNotY :
    (after 0x22800F { ready with pri := { Bank.reset with ay0 := 0xFFFF } }).map
      (fun t => (t.pri.ar, t.st.astat)) = some (0x0, 0x1) := by decide

/-- `AR = -AY0` -/
theorem test_aluNegY :
    (after 0x22A00F { ready with pri := { Bank.reset with ay0 := 0x1 } }).map
      (fun t => (t.pri.ar, t.st.astat)) = some (0xFFFF, 0x2) := by decide

/-- `AR = -AY0` -/
theorem test_aluNegY_2 :
    (after 0x22A00F { ready with pri := { Bank.reset with ay0 := 0x0 } }).map
      (fun t => (t.pri.ar, t.st.astat)) = some (0x0, 0x9) := by decide

/-- `AR = AX0 + C - 1` -/
theorem test_aluXSubBorrow :
    (after 0x22D80F { ready with pri := { Bank.reset with ax0 := 0x0 } }).map
      (fun t => (t.pri.ar, t.st.astat)) = some (0xFFFF, 0x2) := by decide

/-- `AR = AX1 - AY1 + C - 1` -/
theorem test_aluSubBorrow :
    (after 0x22C90F { ready with
        pri := { Bank.reset with ax1 := 0x2, ay1 := 0x1 }
        st := { ready.st with astat := 0x0 } }).map
      (fun t => (t.pri.ar, t.st.astat)) = some (0x0, 0x9) := by decide

/-- `AR = AX0 - AY0` -/
theorem test_aluSub :
    (after 0x22E00F { ready with pri := { Bank.reset with ax0 := 0x5, ay0 := 0x3 } }).map
      (fun t => (t.pri.ar, t.st.astat)) = some (0x2, 0x8) := by decide

/-- `AR = AX0 - AY0` -/
theorem test_aluSub_2 :
    (after 0x22E00F { ready with pri := { Bank.reset with ax0 := 0x8000, ay0 := 0x1 } }).map
      (fun t => (t.pri.ar, t.st.astat)) = some (0x7FFF, 0xC) := by decide

/-- `AR = PASS -1` -/
theorem test_aluPassNegOne :
    (after 0x23180F ready).map (fun t => (t.pri.ar, t.st.astat)) = some (0xFFFF, 0x2) := by decide

/-- `AR = AY1 - 1` -/
theorem test_aluDecY :
    (after 0x23080F { ready with pri := { Bank.reset with ay1 := 0x0 } }).map
      (fun t => (t.pri.ar, t.st.astat)) = some (0xFFFF, 0x2) := by decide

/-- `AR = -AX0` -/
theorem test_aluNegX :
    (after 0x23380F { ready with pri := { Bank.reset with ax0 := 0x8000 } }).map
      (fun t => (t.pri.ar, t.st.astat)) = some (0x8000, 0x6) := by decide

/-- `AR = -AX0` -/
theorem test_aluNegX_2 :
    (after 0x23380F { ready with
        pri := { Bank.reset with ax0 := 0x8000 }
        st := { ready.st with mstat := 0x8 } }).map
      (fun t => (t.pri.ar, t.st.astat)) = some (0x7FFF, 0x6) := by decide

/-- `AR = AY0 - AX0` -/
theorem test_aluRsub :
    (after 0x23200F { ready with pri := { Bank.reset with ay0 := 0x10, ax0 := 0x1 } }).map
      (fun t => (t.pri.ar, t.st.astat)) = some (0xF, 0x8) := by decide

/-- `AR = -AX0 + C - 1` -/
theorem test_aluNegXBorrow :
    (after 0x23580F { ready with pri := { Bank.reset with ax0 := 0x1 } }).map
      (fun t => (t.pri.ar, t.st.astat)) = some (0xFFFE, 0x2) := by decide

/-- `AR = AY0 - AX0 + C - 1` -/
theorem test_aluRsubBorrow :
    (after 0x23400F { ready with
        pri := { Bank.reset with ay0 := 0x0, ax0 := 0x0 }
        st := { ready.st with astat := 0x0 } }).map
      (fun t => (t.pri.ar, t.st.astat)) = some (0xFFFF, 0x2) := by decide

/-- `AR = NOT AX0` -/
theorem test_aluNotX :
    (after 0x23600F { ready with
        pri := { Bank.reset with ax0 := 0xFF }
        st := { ready.st with astat := 0xC } }).map
      (fun t => (t.pri.ar, t.st.astat)) = some (0xFF00, 0x2) := by decide

/-- `AR = AX0 AND AY0` -/
theorem test_aluAnd :
    (after 0x23800F { ready with pri := { Bank.reset with ax0 := 0xF0F0, ay0 := 0xFF0 } }).map
      (fun t => (t.pri.ar, t.st.astat)) = some (0xF0, 0x0) := by decide

/-- `AR = AX0 OR AY0` -/
theorem test_aluOr :
    (after 0x23A00F { ready with pri := { Bank.reset with ax0 := 0xF0, ay0 := 0x8001 } }).map
      (fun t => (t.pri.ar, t.st.astat)) = some (0x80F1, 0x2) := by decide

/-- `AR = AX0 XOR AY0` -/
theorem test_aluXor :
    (after 0x23C00F { ready with pri := { Bank.reset with ax0 := 0x1234, ay0 := 0x1234 } }).map
      (fun t => (t.pri.ar, t.st.astat)) = some (0x0, 0x1) := by decide

/-- `AR = ABS AX0` -/
theorem test_aluAbs :
    (after 0x23E00F { ready with pri := { Bank.reset with ax0 := 0xFFFB } }).map
      (fun t => (t.pri.ar, t.st.astat)) = some (0x5, 0x10) := by decide

/-- `AR = ABS AX0` -/
theorem test_aluAbs_2 :
    (after 0x23E00F { ready with pri := { Bank.reset with ax0 := 0x8000 } }).map
      (fun t => (t.pri.ar, t.st.astat)) = some (0x8000, 0x16) := by decide

/-- `AR = PASS 16` -/
theorem test_aluPassConst :
    (after 0x22081F ready).map (fun t => t.pri.ar) = some 0x10 := by decide

/-- `AR = PASS 17` -/
theorem test_aluPassConstInc :
    (after 0x22281F ready).map (fun t => t.pri.ar) = some 0x11 := by decide

/-- `AR = PASS 8191` -/
theorem test_aluPassConstDec :
    (after 0x23185F ready).map (fun t => t.pri.ar) = some 0x1FFF := by decide

/-- `AR = AX0 + 16 + C` -/
theorem test_aluAddConstC :
    (after 0x22481F { ready with
        pri := { Bank.reset with ax0 := 0x1 }
        st := { ready.st with astat := 0x8 } }).map
      (fun t => (t.pri.ar, t.st.astat)) = some (0x12, 0x0) := by decide

/-- `AR = AR + 512` -/
theorem test_aluAddConst :
    (after 0x22725F { ready with pri := { Bank.reset with ar := 0xFE00 } }).map
      (fun t => (t.pri.ar, t.st.astat)) = some (0x0, 0x9) := by decide

/-- `AR = AX0 - 129 (as + 0xFF7F)` -/
theorem test_aluAddConst_2 :
    (after 0x2268FF { ready with pri := { Bank.reset with ax0 := 0x100 } }).map
      (fun t => (t.pri.ar, t.st.astat)) = some (0x7F, 0x8) := by decide

/-- `AR = AX0 - 16 + C - 1` -/
theorem test_aluSubConstBorrow :
    (after 0x22C81F { ready with
        pri := { Bank.reset with ax0 := 0x10 }
        st := { ready.st with astat := 0x8 } }).map
      (fun t => (t.pri.ar, t.st.astat)) = some (0x0, 0x9) := by decide

/-- `AR = AX0 - 16` -/
theorem test_aluSubConst :
    (after 0x22E81F { ready with pri := { Bank.reset with ax0 := 0x0 } }).map
      (fun t => (t.pri.ar, t.st.astat)) = some (0xFFF0, 0x2) := by decide

/-- `AR = -AX0 + 16` -/
theorem test_aluRsubConst :
    (after 0x23281F { ready with pri := { Bank.reset with ax0 := 0x1 } }).map
      (fun t => (t.pri.ar, t.st.astat)) = some (0xF, 0x8) := by decide

/-- `AR = -AX0 + 16 + C - 1` -/
theorem test_aluRsubConstBorrow :
    (after 0x23481F { ready with pri := { Bank.reset with ax0 := 0x1 } }).map
      (fun t => (t.pri.ar, t.st.astat)) = some (0xE, 0x8) := by decide

/-- `AR = MR0 AND 8192` -/
theorem test_aluAndConst :
    (after 0x239B5F { ready with pri := { Bank.reset with mr0 := 0x3000 } }).map
      (fun t => (t.pri.ar, t.st.astat)) = some (0x2000, 0x0) := by decide

/-- `AF = TSTBIT 5 OF AR` -/
theorem test_aluAndConst_2 :
    (after 0x278A5F { ready with pri := { Bank.reset with ar := 0xFFDF } }).map
      (fun t => (t.pri.af, t.st.astat)) = some (0x0, 0x1) := by decide

/-- `AR = SETBIT 15 OF AX0` -/
theorem test_aluOrConst :
    (after 0x23B8DF { ready with pri := { Bank.reset with ax0 := 0x0 } }).map
      (fun t => (t.pri.ar, t.st.astat)) = some (0x8000, 0x2) := by decide

/-- `AR = TGLBIT 13 OF AX0` -/
theorem test_aluXorConst :
    (after 0x23D85F { ready with pri := { Bank.reset with ax0 := 0x2000 } }).map
      (fun t => (t.pri.ar, t.st.astat)) = some (0x0, 0x1) := by decide

/-- `AR = NOT 16` -/
theorem test_aluNotConst :
    (after 0x22881F ready).map (fun t => (t.pri.ar, t.st.astat)) = some (0xFFEF, 0x2) := by decide

/-- `AR = -16` -/
theorem test_aluNegConst :
    (after 0x22A81F ready).map (fun t => (t.pri.ar, t.st.astat)) = some (0xFFF0, 0x2) := by decide

/-- `MR = MX0 * MX0 (RND)` -/
theorem test_macSqRnd :
    (after 0x20201F { ready with pri := { Bank.reset with mx0 := 0x4000 } }).map
      (fun t => (t.pri.mr2, t.pri.mr1, t.pri.mr0, t.st.astat)) = some (0x0, 0x2000, 0x8000, 0x0) := by decide

/-- `MR = MX0 * MY0 (RND)` -/
theorem test_macMulRnd :
    (after 0x20200F { ready with pri := { Bank.reset with mx0 := 0x1, my0 := 0x4000 } }).map
      (fun t => (t.pri.mr2, t.pri.mr1, t.pri.mr0, t.pri.mf, t.st.astat)) =
      some (0x0, 0x0, 0x0, 0x0, 0x0) := by decide

/-- `MR = MX0 * MY0 (RND)` -/
theorem test_macMulRnd_2 :
    (after 0x20200F { ready with pri := { Bank.reset with mx0 := 0x3, my0 := 0x4000 } }).map
      (fun t => (t.pri.mr2, t.pri.mr1, t.pri.mr0, t.pri.mf, t.st.astat)) =
      some (0x0, 0x2, 0x0, 0x0, 0x0) := by decide

/-- `MR = MR + MX0 * MX0 (RND)` -/
theorem test_macAddSqRnd :
    (after 0x20401F { ready with
        pri := { Bank.reset with mx0 := 0x4000, mr2 := 0x0, mr1 := 0x0, mr0 := 0x1 } }).map
      (fun t => (t.pri.mr2, t.pri.mr1, t.pri.mr0, t.st.astat)) = some (0x0, 0x2000, 0x8001, 0x0) := by decide

/-- `MF = MR (RND)` -/
theorem test_macRnd :
    (after 0x24580F { ready with
        pri := { Bank.reset with mr2 := 0x0, mr1 := 0x1234, mr0 := 0x8000 } }).map
      (fun t => (t.pri.mr2, t.pri.mr1, t.pri.mr0, t.pri.mf, t.st.astat)) =
      some (0x0, 0x1234, 0x8000, 0x1234, 0x0) := by decide

/-- `MF = MR (RND)` -/
theorem test_macRnd_2 :
    (after 0x24580F { ready with
        pri := { Bank.reset with mr2 := 0x0, mr1 := 0x1235, mr0 := 0x8000 } }).map
      (fun t => (t.pri.mr2, t.pri.mr1, t.pri.mr0, t.pri.mf, t.st.astat)) =
      some (0x0, 0x1235, 0x8000, 0x1236, 0x0) := by decide

/-- `MR = MR + MX0 * MY0 (RND)` -/
theorem test_macAddRnd :
    (after 0x20400F { ready with
        pri := { Bank.reset with
          mx0 := 0x1
          my0 := 0x1
          mr2 := 0x0
          mr1 := 0x0
          mr0 := 0x7FFF } }).map
      (fun t => (t.pri.mr2, t.pri.mr1, t.pri.mr0, t.st.astat)) = some (0x0, 0x1, 0x1, 0x0) := by decide

/-- `MR = MR - MX0 * MX0 (RND)` -/
theorem test_macSubSqRnd :
    (after 0x20601F { ready with
        pri := { Bank.reset with mx0 := 0x4000, mr2 := 0x0, mr1 := 0x2000, mr0 := 0x0 } }).map
      (fun t => (t.pri.mr2, t.pri.mr1, t.pri.mr0, t.st.astat)) = some (0x0, 0x0, 0x8000, 0x0) := by decide

/-- `MR = MR - MX0 * MY0 (RND)` -/
theorem test_macSubRnd :
    (after 0x20600F { ready with pri := { Bank.reset with mx0 := 0x1, my0 := 0x4000 } }).map
      (fun t => (t.pri.mr2, t.pri.mr1, t.pri.mr0, t.st.astat)) = some (0x0, 0x0, 0x0, 0x0) := by decide

/-- `MF = SR0 * SR0 (SS)` -/
theorem test_macSqSS :
    (after 0x24861F { ready with pri := { Bank.reset with sr0 := 0xC000 } }).map
      (fun t => (t.pri.mr2, t.pri.mr1, t.pri.mr0, t.pri.mf, t.st.astat)) =
      some (0x0, 0x0, 0x0, 0x2000, 0x0) := by decide

/-- `MR = 0` -/
theorem test_macZero :
    (after 0x20980F { ready with
        pri := { Bank.reset with mr2 := 0x12, mr1 := 0x3456, mr0 := 0x7890 }
        st := { ready.st with astat := 0x40 } }).map
      (fun t => (t.pri.mr2, t.pri.mr1, t.pri.mr0, t.pri.mf, t.st.astat)) =
      some (0x0, 0x0, 0x0, 0x0, 0x0) := by decide

/-- `MF = 0` -/
theorem test_macZero_2 :
    (after 0x24980F { ready with
        pri := { Bank.reset with mf := 0x7777, mr2 := 0x12, mr1 := 0x3456, mr0 := 0x7890 }
        st := { ready.st with astat := 0x40 } }).map
      (fun t => (t.pri.mr2, t.pri.mr1, t.pri.mr0, t.pri.mf, t.st.astat)) =
      some (0x12, 0x3456, 0x7890, 0x0, 0x0) := by decide

/-- `MR = MX0 * MY0 (SS)` -/
theorem test_macMulSS :
    (after 0x20800F { ready with pri := { Bank.reset with mx0 := 0x4000, my0 := 0x4000 } }).map
      (fun t => (t.pri.mr2, t.pri.mr1, t.pri.mr0, t.pri.mf, t.st.astat)) =
      some (0x0, 0x2000, 0x0, 0x0, 0x0) := by decide

/-- `MR = MX0 * MY0 (SS)` -/
theorem test_macMulSS_2 :
    (after 0x20800F { ready with pri := { Bank.reset with mx0 := 0x8000, my0 := 0x8000 } }).map
      (fun t => (t.pri.mr2, t.pri.mr1, t.pri.mr0, t.pri.mf, t.st.astat)) =
      some (0x0, 0x8000, 0x0, 0x0, 0x40) := by decide

/-- `MR = MX0 * MY0 (SU)` -/
theorem test_macMulSU :
    (after 0x20A00F { ready with
        pri := { Bank.reset with mx0 := 0xFFFF, my0 := 0xFFFF }
        st := { ready.st with mstat := 0x10 } }).map
      (fun t => (t.pri.mr2, t.pri.mr1, t.pri.mr0, t.pri.mf, t.st.astat)) =
      some (0xFF, 0xFFFF, 0x1, 0x0, 0x0) := by decide

/-- `MR = MX0 * MY0 (US)` -/
theorem test_macMulUS :
    (after 0x20C00F { ready with
        pri := { Bank.reset with mx0 := 0xFFFF, my0 := 0xFFFF }
        st := { ready.st with mstat := 0x10 } }).map
      (fun t => (t.pri.mr2, t.pri.mr1, t.pri.mr0, t.pri.mf, t.st.astat)) =
      some (0xFF, 0xFFFF, 0x1, 0x0, 0x0) := by decide

/-- `MR = AR * AR (UU)` -/
theorem test_macSqUU :
    (after 0x20E21F { ready with pri := { Bank.reset with ar := 0xFFFF } }).map
      (fun t => (t.pri.mr2, t.pri.mr1, t.pri.mr0, t.pri.mf, t.st.astat)) =
      some (0x1, 0xFFFC, 0x2, 0x0, 0x40) := by decide

/-- `MR = MX0 * MY0 (UU)` -/
theorem test_macMulUU :
    (after 0x20E00F { ready with
        pri := { Bank.reset with mx0 := 0xFFFF, my0 := 0xFFFF }
        st := { ready.st with mstat := 0x10 } }).map
      (fun t => (t.pri.mr2, t.pri.mr1, t.pri.mr0, t.pri.mf, t.st.astat)) =
      some (0x0, 0xFFFE, 0x1, 0x0, 0x40) := by decide

/-- `MR = MR + MX0 * MX0 (SS)` -/
theorem test_macAddSqSS :
    (after 0x21001F { ready with
        pri := { Bank.reset with mx0 := 0x3, mr2 := 0x0, mr1 := 0x0, mr0 := 0x5 }
        st := { ready.st with mstat := 0x10 } }).map
      (fun t => (t.pri.mr2, t.pri.mr1, t.pri.mr0, t.st.astat)) = some (0x0, 0x0, 0xE, 0x0) := by decide

/-- `MR = MR` -/
theorem test_macCopy :
    (after 0x21180F { ready with
        pri := { Bank.reset with mr2 := 0x1, mr1 := 0x2345, mr0 := 0x6789 } }).map
      (fun t => (t.pri.mr2, t.pri.mr1, t.pri.mr0, t.pri.mf, t.st.astat)) =
      some (0x1, 0x2345, 0x6789, 0x0, 0x40) := by decide

/-- `MR = MR + MX0 * MY0 (SS)` -/
theorem test_macAddSS :
    (after 0x21000F { ready with
        pri := { Bank.reset with
          mr2 := 0x0
          mr1 := 0x7FFF
          mr0 := 0xFFFF
          mx0 := 0x1
          my0 := 0x1 }
        st := { ready.st with mstat := 0x10 } }).map
      (fun t => (t.pri.mr2, t.pri.mr1, t.pri.mr0, t.pri.mf, t.st.astat)) =
      some (0x0, 0x8000, 0x0, 0x0, 0x40) := by decide

/-- `MR = MR + MX0 * MY0 (SS)` -/
theorem test_macAddSS_2 :
    (after 0x21000F { ready with
        pri := { Bank.reset with
          mr2 := 0x7F
          mr1 := 0xFFFF
          mr0 := 0xFFFF
          mx0 := 0x1
          my0 := 0x1 }
        st := { ready.st with mstat := 0x10 } }).map
      (fun t => (t.pri.mr2, t.pri.mr1, t.pri.mr0, t.pri.mf, t.st.astat)) =
      some (0x80, 0x0, 0x0, 0x0, 0x40) := by decide

/-- `MR = MR + MX0 * MY0 (SU)` -/
theorem test_macAddSU :
    (after 0x21200F { ready with
        pri := { Bank.reset with
          mx0 := 0xFFFF
          my0 := 0xFFFF
          mr2 := 0x0
          mr1 := 0x1
          mr0 := 0x0 }
        st := { ready.st with mstat := 0x10 } }).map
      (fun t => (t.pri.mr2, t.pri.mr1, t.pri.mr0, t.st.astat)) = some (0x0, 0x0, 0x1, 0x0) := by decide

/-- `MR = MR + MX0 * MY0 (US)` -/
theorem test_macAddUS :
    (after 0x21400F { ready with
        pri := { Bank.reset with
          mx0 := 0xFFFF
          my0 := 0xFFFF
          mr2 := 0x0
          mr1 := 0x1
          mr0 := 0x0 }
        st := { ready.st with mstat := 0x10 } }).map
      (fun t => (t.pri.mr2, t.pri.mr1, t.pri.mr0, t.st.astat)) = some (0x0, 0x0, 0x1, 0x0) := by decide

/-- `MR = MR + MX0 * MX0 (UU)` -/
theorem test_macAddSqUU :
    (after 0x21601F { ready with
        pri := { Bank.reset with mx0 := 0xFFFF, mr2 := 0x0, mr1 := 0x0, mr0 := 0x1 }
        st := { ready.st with mstat := 0x10 } }).map
      (fun t => (t.pri.mr2, t.pri.mr1, t.pri.mr0, t.st.astat)) = some (0x0, 0xFFFE, 0x2, 0x40) := by decide

/-- `MR = MR + MX0 * MY0 (UU)` -/
theorem test_macAddUU :
    (after 0x21600F { ready with
        pri := { Bank.reset with mx0 := 0x2, my0 := 0x3, mr2 := 0x0, mr1 := 0x0, mr0 := 0x4 }
        st := { ready.st with mstat := 0x10 } }).map
      (fun t => (t.pri.mr2, t.pri.mr1, t.pri.mr0, t.st.astat)) = some (0x0, 0x0, 0xA, 0x0) := by decide

/-- `MR = MR - MX0 * MX0 (SS)` -/
theorem test_macSubSqSS :
    (after 0x21801F { ready with
        pri := { Bank.reset with mx0 := 0x4000, mr2 := 0x0, mr1 := 0x2000, mr0 := 0x0 } }).map
      (fun t => (t.pri.mr2, t.pri.mr1, t.pri.mr0, t.pri.mf, t.st.astat)) =
      some (0x0, 0x0, 0x0, 0x0, 0x0) := by decide

/-- `MR = MR - MX0 * MY0 (SS)` -/
theorem test_macSubSS :
    (after 0x21800F { ready with pri := { Bank.reset with mx0 := 0x4000, my0 := 0x4000 } }).map
      (fun t => (t.pri.mr2, t.pri.mr1, t.pri.mr0, t.pri.mf, t.st.astat)) =
      some (0xFF, 0xE000, 0x0, 0x0, 0x0) := by decide

/-- `MR = MR - MX0 * MY0 (SU)` -/
theorem test_macSubSU :
    (after 0x21A00F { ready with
        pri := { Bank.reset with mx0 := 0xFFFF, my0 := 0x2 }
        st := { ready.st with mstat := 0x10 } }).map
      (fun t => (t.pri.mr2, t.pri.mr1, t.pri.mr0, t.st.astat)) = some (0x0, 0x0, 0x2, 0x0) := by decide

/-- `MR = MR - MX0 * MY0 (US)` -/
theorem test_macSubUS :
    (after 0x21C00F { ready with
        pri := { Bank.reset with mx0 := 0x2, my0 := 0xFFFF }
        st := { ready.st with mstat := 0x10 } }).map
      (fun t => (t.pri.mr2, t.pri.mr1, t.pri.mr0, t.st.astat)) = some (0x0, 0x0, 0x2, 0x0) := by decide

/-- `MR = MR - MX0 * MX0 (UU)` -/
theorem test_macSubSqUU :
    (after 0x21E01F { ready with
        pri := { Bank.reset with mx0 := 0x2, mr2 := 0x0, mr1 := 0x0, mr0 := 0x9 }
        st := { ready.st with mstat := 0x10 } }).map
      (fun t => (t.pri.mr2, t.pri.mr1, t.pri.mr0, t.st.astat)) = some (0x0, 0x0, 0x5, 0x0) := by decide

/-- `MR = MR - MX0 * MY0 (UU)` -/
theorem test_macSubUU :
    (after 0x21E00F { ready with
        pri := { Bank.reset with mx0 := 0x2, my0 := 0x3, mr2 := 0x0, mr1 := 0x0, mr0 := 0x9 }
        st := { ready.st with mstat := 0x10 } }).map
      (fun t => (t.pri.mr2, t.pri.mr1, t.pri.mr0, t.st.astat)) = some (0x0, 0x0, 0x3, 0x0) := by decide

/-- `a Type 9 word without a function` -/
theorem test_condNop :
    (after 0x20000F { ready with pri := { Bank.reset with ar := 0x1234 } }).map
      (fun t => (t.pri.ar, t.seq.pc)) = some (0x1234, 0x0101) := by decide

/-- `NONE = AX0 - AY0` -/
theorem test_aluNone :
    (after 0x2AE0AA { ready with
        pri := { Bank.reset with ax0 := 0x3, ay0 := 0x5, ar := 0x1111 } }).map
      (fun t => (t.pri.ar, t.st.astat)) = some (0x1111, 0x2) := by decide

/-- `AX0 = MR2` -/
theorem test_moveDreg :
    (after 0x28000D { ready with pri := { Bank.reset with mr2 := 0x80 } }).map (fun t => t.pri.ax0) =
      some 0xFF80 := by decide

/-- `AR = PASS AX0, AX0 = AR` -/
theorem test_aluMove :
    (after 0x2A780A { ready with pri := { Bank.reset with ax0 := 0x1234, ar := 0x5678 } }).map
      (fun t => (t.pri.ar, t.pri.ax0, t.st.astat)) = some (0x1234, 0x5678, 0x0) := by decide

/-- `MR = MX0 * MY0 (UU), MX0 = MY0` -/
theorem test_macMove :
    (after 0x28E026 { ready with
        pri := { Bank.reset with mx0 := 0xFFFF, my0 := 0x2 }
        st := { ready.st with mstat := 0x10 } }).map
      (fun t => (t.pri.mr2, t.pri.mr1, t.pri.mr0, t.pri.mx0, t.st.astat)) =
      some (0x0, 0x1, 0xFFFE, 0x2, 0x0) := by decide

/-- `AX0 = DM(I0,M0), AY0 = PM(I4,M4)` -/
theorem test_dualRead :
    (after 0xC00000 ((({ ready with
        pri := { Bank.reset with ar := 0x7777 }
        st := { ready.st with astat := 0xFF }
        dag := { Dag.reset with
          i := #v[0x200, 0, 0, 0, 0x300, 0, 0, 0]
          m := #v[0x1, 0, 0, 0, 0x1, 0, 0, 0] } }).writeDm 0x0200 0x1).writePm 0x0300 0x2FF)).map
      (fun t => (t.pri.ax0, t.pri.ay0, t.px, t.pri.ar, t.st.astat)) =
      some (0x1, 0x2, 0xFF, 0x7777, 0xFF) := by decide

/-- `MR = MR + MX0 * MY0 (SS), MX0 = DM(I0,M0), MY0 = PM(I4,M4)` -/
theorem test_compDualRead :
    (after 0xE90000 ((({ ready with
        pri := { Bank.reset with
          mx0 := 0x4000
          my0 := 0x4000
          mr2 := 0x0
          mr1 := 0x1
          mr0 := 0x0 }
        dag := { Dag.reset with
          i := #v[0x200, 0, 0, 0, 0x300, 0, 0, 0]
          m := #v[0x1, 0, 0, 0, 0x1, 0, 0, 0] } }).writeDm 0x0200 0x1111).writePm 0x0300 0x222233)).map
      (fun t => (t.pri.mr2, t.pri.mr1, t.pri.mr0, t.pri.mx0, t.pri.my0, t.px, t.dag.i[0], t.dag.i[4], t.st.astat)) =
      some (0x0, 0x2001, 0x0, 0x1111, 0x2222, 0x33, 0x201, 0x301, 0x0) := by decide

/-- `AX0 = DM(I0,M1)` -/
theorem test_loadDm :
    (after 0x600001 (({ ready with
        dag := { Dag.reset with
          i := #v[0x300, 0, 0, 0, 0, 0, 0, 0]
          m := #v[0, 0x3FFF, 0, 0, 0, 0, 0, 0] } }).writeDm 0x0300 0x4321)).map
      (fun t => (t.pri.ax0, t.dag.i[0])) = some (0x4321, 0x2FF) := by decide

/-- `AX0 = DM(I4,M4)` -/
theorem test_loadDm_2 :
    (after 0x700000 ((({ ready with
        st := { ready.st with mstat := 0x2 }
        dag := { Dag.reset with
          i := #v[0, 0, 0, 0, 0x1, 0, 0, 0]
          m := #v[0, 0, 0, 0, 0x1, 0, 0, 0] } }).writeDm 0x2000 0x1111).writeDm 0x0001 0x2222)).map
      (fun t => (t.pri.ax0, t.dag.i[4])) = some (0x2222, 0x2) := by decide

/-- `AR = AX0 + AY0, AX0 = DM(I0,M0)` -/
theorem test_compLoadDm :
    (after 0x626000 (({ ready with
        pri := { Bank.reset with ax0 := 0x3, ay0 := 0x4 }
        dag := { Dag.reset with
          i := #v[0x200, 0, 0, 0, 0, 0, 0, 0]
          m := #v[0x1, 0, 0, 0, 0, 0, 0, 0] } }).writeDm 0x0200 0x9999)).map
      (fun t => (t.pri.ar, t.pri.ax0, t.dag.i[0], t.st.astat)) = some (0x7, 0x9999, 0x201, 0x0) := by decide

/-- `DM(I5,M6) = AR` -/
theorem test_storeDm :
    (after 0x7800A6 { ready with
        pri := { Bank.reset with ar := 0x9999 }
        dag := { Dag.reset with
          i := #v[0, 0, 0, 0, 0, 0x400, 0, 0]
          m := #v[0, 0, 0, 0, 0, 0, 0x4, 0] } }).map
      (fun t => (t.readDm 0x0400, t.dag.i[5])) = some (0x9999, 0x404) := by decide

/-- `AR = AX0 + AY0, DM(I0,M0) = AR` -/
theorem test_compStoreDm :
    (after 0x6A60A0 { ready with
        pri := { Bank.reset with ax0 := 0x3, ay0 := 0x4, ar := 0x1111 }
        dag := { Dag.reset with
          i := #v[0x200, 0, 0, 0, 0, 0, 0, 0]
          m := #v[0x1, 0, 0, 0, 0, 0, 0, 0] } }).map
      (fun t => (t.pri.ar, t.readDm 0x0200, t.dag.i[0])) = some (0x7, 0x1111, 0x201) := by decide

/-- `AY0 = PM(I4,M4)` -/
theorem test_loadPm :
    (after 0x500040 (({ ready with
        dag := { Dag.reset with
          i := #v[0, 0, 0, 0, 0x800, 0, 0, 0]
          m := #v[0, 0, 0, 0, 0x1, 0, 0, 0] } }).writePm 0x0800 0x123456)).map
      (fun t => (t.pri.ay0, t.px, t.dag.i[4])) = some (0x1234, 0x56, 0x801) := by decide

/-- `AR = AX0 + AY0, AX1 = PM(I4,M4)` -/
theorem test_compLoadPm :
    (after 0x526010 (({ ready with
        pri := { Bank.reset with ax0 := 0x3, ay0 := 0x4 }
        dag := { Dag.reset with
          i := #v[0, 0, 0, 0, 0x300, 0, 0, 0]
          m := #v[0, 0, 0, 0, 0x1, 0, 0, 0] } }).writePm 0x0300 0x123456)).map
      (fun t => (t.pri.ar, t.pri.ax1, t.px, t.dag.i[4])) = some (0x7, 0x1234, 0x56, 0x301) := by decide

/-- `PM(I4,M4) = AX0` -/
theorem test_storePm :
    (after 0x580000 { ready with
        pri := { Bank.reset with ax0 := 0xABCD }
        dag := { Dag.reset with
          i := #v[0, 0, 0, 0, 0x800, 0, 0, 0]
          m := #v[0, 0, 0, 0, 0x1, 0, 0, 0] }
        px := 0xEF }).map
      (fun t => (t.readPm 0x0800, t.dag.i[4])) = some (0xABCDEF, 0x801) := by decide

/-- `AR = AX0 + AY0, PM(I4,M4) = AR` -/
theorem test_compStorePm :
    (after 0x5A60A0 { ready with
        pri := { Bank.reset with ax0 := 0x3, ay0 := 0x4, ar := 0x1111 }
        dag := { Dag.reset with
          i := #v[0, 0, 0, 0, 0x300, 0, 0, 0]
          m := #v[0, 0, 0, 0, 0x1, 0, 0, 0] }
        px := 0x22 }).map
      (fun t => (t.pri.ar, t.readPm 0x0300, t.dag.i[4])) = some (0x7, 0x111122, 0x301) := by decide

/-- `DM(I0,M0) = 0x1234` -/
theorem test_storeDmImm :
    (after 0xA12340 { ready with
        dag := { Dag.reset with
          i := #v[0x200, 0, 0, 0, 0, 0, 0, 0]
          m := #v[0x2, 0, 0, 0, 0, 0, 0, 0] } }).map
      (fun t => (t.readDm 0x0200, t.dag.i[0])) = some (0x1234, 0x202) := by decide

/-- `AX0 = DM(0x1000)` -/
theorem test_loadReg :
    (after 0x810000 (ready.writeDm 0x1000 0xBEEF)).map (fun t => t.pri.ax0) =
      some 0xBEEF := by decide

/-- `DM(0x1000) = SE` -/
theorem test_storeReg :
    (after 0x910009 { ready with pri := { Bank.reset with se := 0x80 } }).map
      (fun t => t.readDm 0x1000) = some 0xFF80 := by decide

/-- `AX0 = 0x1234` -/
theorem test_loadDregImm :
    (after 0x412340 ready).map (fun t => t.pri.ax0) = some 0x1234 := by decide

/-- `MR1 = 0x8000` -/
theorem test_loadDregImm_2 :
    (after 0x48000C { ready with
        pri := { Bank.reset with mr2 := 0x0, mr1 := 0x1111, mr0 := 0x2222 } }).map
      (fun t => (t.pri.mr2, t.pri.mr1, t.pri.mr0)) = some (0xFF, 0x8000, 0x2222) := by decide

/-- `I4 = 0x2000` -/
theorem test_loadRegImm :
    (after 0x3A0000 ready).map (fun t => t.dag.i[4]) = some 0x2000 := by decide

/-- `M0 = -1` -/
theorem test_loadRegImm_2 :
    (after 0x37FFF4 ready).map (fun t => t.dag.m[0]) = some 0x3FFF := by decide

/-- `JUMP 0x0123` -/
theorem test_jump :
    (after 0x18123F ready).map (fun t => (t.seq.pc, t.seq.pcStk.entries, t.sstat)) =
      some (0x0123, [], 0x55) := by decide

/-- `IF NOT CE JUMP 0x0010` -/
theorem test_jump_2 :
    (after 0x18010E { ready with
        seq := { ready.seq with cntr := 0x1, cntrValid := true } }).map
      (fun t => (t.seq.pc, t.seq.pcStk.entries, t.sstat, t.seq.cntr, t.seq.cntrValid)) =
      some (0x0101, [], 0x55, 0x0, false) := by decide

/-- `IF AV CALL 0x0100` -/
theorem test_call :
    (after 0x1C1006 { ready with
        st := { ready.st with astat := 0x4 }
        seq := { ready.seq with pc := 0x180 } }).map
      (fun t => (t.seq.pc, t.seq.pcStk.entries, t.sstat)) = some (0x0100, [0x0181], 0x54) := by decide

/-- `CALL 0x0200` -/
theorem test_call_2 :
    (after 0x1C200F { ready with seq := { ready.seq with pc := 0x3FFF } }).map
      (fun t => (t.seq.pc, t.seq.pcStk.entries, t.sstat)) = some (0x0200, [0x0000], 0x54) := by decide

/-- `DO 0x0105 UNTIL CE` -/
theorem test_doUntil :
    (after 0x14105E ready).map
      (fun t => (t.seq.pc, t.seq.pcStk.entries, t.seq.loopStk.entries.map (fun e => (e.last, e.term)), t.sstat)) =
      some (0x0101, [0x0101], [(0x0105, .ce)], 0x14) := by decide

/-- `SR = LSHIFT SI (HI), SI = DM(I0,M0)` -/
theorem test_shiftLoadDm :
    (after 0x120080 (({ ready with
        pri := { Bank.reset with si := 0xFF, se := 0x4 }
        dag := { Dag.reset with
          i := #v[0x200, 0, 0, 0, 0, 0, 0, 0]
          m := #v[0x1, 0, 0, 0, 0, 0, 0, 0] } }).writeDm 0x0200 0xABCD)).map
      (fun t => (t.pri.sr1, t.pri.sr0, t.pri.si, t.dag.i[0])) = some (0xFF0, 0x0, 0xABCD, 0x201) := by decide

/-- `SR = SR OR ASHIFT SI (LO), DM(I4,M5) = SR1` -/
theorem test_shiftStoreDm :
    (after 0x13B8F1 { ready with
        pri := { Bank.reset with si := 0x8000, se := 0xFC, sr1 := 0x1234, sr0 := 0x0 }
        dag := { Dag.reset with
          i := #v[0, 0, 0, 0, 0x400, 0, 0, 0]
          m := #v[0, 0, 0, 0, 0, 0, 0, 0] } }).map
      (fun t => (t.pri.sr1, t.pri.sr0, t.readDm 0x0400, t.dag.i[4])) =
      some (0xFFFF, 0xF800, 0x1234, 0x400) := by decide

/-- `SR = LSHIFT SI (LO), AX0 = PM(I4,M4)` -/
theorem test_shiftLoadPm :
    (after 0x111000 (({ ready with
        pri := { Bank.reset with si := 0xF0, se := 0x4 }
        dag := { Dag.reset with
          i := #v[0, 0, 0, 0, 0x300, 0, 0, 0]
          m := #v[0, 0, 0, 0, 0x1, 0, 0, 0] } }).writePm 0x0300 0x123456)).map
      (fun t => (t.pri.sr1, t.pri.sr0, t.pri.ax0, t.px)) = some (0x0, 0xF00, 0x1234, 0x56) := by decide

/-- `SR = LSHIFT SI (LO), PM(I4,M4) = AX0` -/
theorem test_shiftStorePm :
    (after 0x119000 { ready with
        pri := { Bank.reset with si := 0xF0, se := 0x4, ax0 := 0x9876 }
        dag := { Dag.reset with i := #v[0, 0, 0, 0, 0x300, 0, 0, 0] }
        px := 0x54 }).map
      (fun t => (t.pri.sr1, t.pri.sr0, t.readPm 0x0300)) = some (0x0, 0xF00, 0x987654) := by decide

/-- `SR = LSHIFT AR (LO), AR = SI` -/
theorem test_shiftMove :
    (after 0x1012A8 { ready with
        pri := { Bank.reset with ar := 0xF0, si := 0x4444, se := 0x4 } }).map
      (fun t => (t.pri.sr1, t.pri.sr0, t.pri.ar)) = some (0x0, 0xF00, 0x4444) := by decide

/-- `SR = LSHIFT SI BY -5 (HI)` -/
theorem test_lshiftImmHi :
    (after 0x0F00FB { ready with pri := { Bank.reset with si := 0xB6A3 } }).map
      (fun t => (t.pri.sr1, t.pri.sr0)) = some (0x5B5, 0x1800) := by decide

/-- `SR = SR OR LSHIFT MR1 BY -5 (HI)` -/
theorem test_lshiftImmHiOr :
    (after 0x0F0CFB { ready with
        pri := { Bank.reset with
          mr2 := 0x12
          mr1 := 0x3456
          mr0 := 0x789A
          sr1 := 0x0
          sr0 := 0x3C4 } }).map
      (fun t => (t.pri.sr1, t.pri.sr0)) = some (0x1A2, 0xB3C4) := by decide

/-- `SR = LSHIFT SI BY 5 (LO)` -/
theorem test_lshiftImmLo :
    (after 0x0F1005 { ready with pri := { Bank.reset with si := 0xB6A3 } }).map
      (fun t => (t.pri.sr1, t.pri.sr0)) = some (0x16, 0xD460) := by decide

/-- `SR = SR OR LSHIFT SI BY 4 (LO)` -/
theorem test_lshiftImmLoOr :
    (after 0x0F1804 { ready with
        pri := { Bank.reset with si := 0xF0, sr1 := 0x0, sr0 := 0xF } }).map
      (fun t => (t.pri.sr1, t.pri.sr0)) = some (0x0, 0xF0F) := by decide

/-- `SR = ASHIFT SI BY -5 (HI)` -/
theorem test_ashiftImmHi :
    (after 0x0F20FB { ready with pri := { Bank.reset with si := 0xB6A3, se := 0x7 } }).map
      (fun t => (t.pri.sr1, t.pri.sr0, t.pri.se)) = some (0xFDB5, 0x1800, 0x7) := by decide

/-- `SR = SR OR ASHIFT SI BY -4 (HI)` -/
theorem test_ashiftImmHiOr :
    (after 0x0F28FC { ready with
        pri := { Bank.reset with si := 0x8000, sr1 := 0x0, sr0 := 0x1 } }).map
      (fun t => (t.pri.sr1, t.pri.sr0)) = some (0xF800, 0x1) := by decide

/-- `SR = ASHIFT SI BY -5 (LO)` -/
theorem test_ashiftImmLo :
    (after 0x0F30FB { ready with pri := { Bank.reset with si := 0xB6A3 } }).map
      (fun t => (t.pri.sr1, t.pri.sr0)) = some (0xFFFF, 0xFDB5) := by decide

/-- `SR = SR OR ASHIFT SR0 BY 3 (LO)` -/
theorem test_ashiftImmLoOr :
    (after 0x0F3E03 { ready with pri := { Bank.reset with sr1 := 0x1, sr0 := 0x8001 } }).map
      (fun t => (t.pri.sr1, t.pri.sr0)) = some (0xFFFD, 0x8009) := by decide

/-- `SR = LSHIFT SI (HI)` -/
theorem test_lshiftHi :
    (after 0x0E000F { ready with pri := { Bank.reset with si := 0x8000, se := 0xFC } }).map
      (fun t => (t.pri.sr1, t.pri.sr0)) = some (0x800, 0x0) := by decide

/-- `SR = SR OR LSHIFT SI (HI)` -/
theorem test_lshiftHiOr :
    (after 0x0E080F { ready with
        pri := { Bank.reset with si := 0x8000, se := 0xFC, sr1 := 0x0, sr0 := 0xF } }).map
      (fun t => (t.pri.sr1, t.pri.sr0)) = some (0x800, 0xF) := by decide

/-- `SR = LSHIFT SI (LO)` -/
theorem test_lshiftLo :
    (after 0x0E100F { ready with pri := { Bank.reset with si := 0x765D, se := 0xFD } }).map
      (fun t => (t.pri.sr1, t.pri.sr0)) = some (0x0, 0xECB) := by decide

/-- `SR = SR OR LSHIFT SI (LO)` -/
theorem test_lshiftLoOr :
    (after 0x0E180F { ready with
        pri := { Bank.reset with si := 0x765D, se := 0xFD, sr1 := 0xF6D4, sr0 := 0x6000 } }).map
      (fun t => (t.pri.sr1, t.pri.sr0)) = some (0xF6D4, 0x6ECB) := by decide

/-- `SR = ASHIFT SI (HI)` -/
theorem test_ashiftHi :
    (after 0x0E200F { ready with pri := { Bank.reset with si := 0xB6A3, se := 0xFD } }).map
      (fun t => (t.pri.sr1, t.pri.sr0)) = some (0xF6D4, 0x6000) := by decide

/-- `SR = ASHIFT SI (HI)` -/
theorem test_ashiftHi_2 :
    (after 0x0E200F { ready with pri := { Bank.reset with si := 0xFFFF, se := 0x10 } }).map
      (fun t => (t.pri.sr1, t.pri.sr0)) = some (0x0, 0x0) := by decide

/-- `SR = SR OR ASHIFT SI (HI)` -/
theorem test_ashiftHiOr :
    (after 0x0E280F { ready with
        pri := { Bank.reset with si := 0xB6A3, se := 0xFD, sr1 := 0x0, sr0 := 0xECB } }).map
      (fun t => (t.pri.sr1, t.pri.sr0)) = some (0xF6D4, 0x6ECB) := by decide

/-- `SR = ASHIFT SI (LO)` -/
theorem test_ashiftLo :
    (after 0x0E300F { ready with pri := { Bank.reset with si := 0x8000, se := 0x0 } }).map
      (fun t => (t.pri.sr1, t.pri.sr0)) = some (0xFFFF, 0x8000) := by decide

/-- `IF LT SR = SR OR ASHIFT SI (LO)` -/
theorem test_ashiftLoOr :
    (after 0x0E3804 { ready with
        pri := { Bank.reset with si := 0x4000, se := 0x1, sr1 := 0x0, sr0 := 0x1 }
        st := { ready.st with astat := 0x0 } }).map
      (fun t => (t.pri.sr1, t.pri.sr0)) = some (0x0, 0x1) := by decide

/-- `SR = NORM SI (HI)` -/
theorem test_normHi :
    (after 0x0E400F { ready with pri := { Bank.reset with si := 0xF6D4, se := 0xFD } }).map
      (fun t => (t.pri.sr1, t.pri.sr0)) = some (0xB6A0, 0x0) := by decide

/-- `SR = NORM AR (HI)` -/
theorem test_normHi_2 :
    (after 0x0E420F { ready with
        pri := { Bank.reset with ar := 0xFA32, se := 0x1 }
        st := { ready.st with astat := 0x8 } }).map
      (fun t => (t.pri.sr1, t.pri.sr0)) = some (0xFD19, 0x0) := by decide

/-- `SR = SR OR NORM SI (HI)` -/
theorem test_normHiOr :
    (after 0x0E480F { ready with
        pri := { Bank.reset with si := 0xF6D4, se := 0xFD, sr1 := 0x0, sr0 := 0x1 } }).map
      (fun t => (t.pri.sr1, t.pri.sr0)) = some (0xB6A0, 0x1) := by decide

/-- `SR = NORM AR (LO)` -/
theorem test_normLo :
    (after 0x0E520F { ready with
        pri := { Bank.reset with ar := 0xFA32, se := 0x1 }
        st := { ready.st with astat := 0x8 } }).map
      (fun t => (t.pri.sr1, t.pri.sr0)) = some (0x0, 0x7D19) := by decide

/-- `SR = SR OR NORM SI (LO)` -/
theorem test_normLoOr :
    (after 0x0E580F { ready with
        pri := { Bank.reset with si := 0x6ECB, se := 0xFD, sr1 := 0xB6A0, sr0 := 0x0 } }).map
      (fun t => (t.pri.sr1, t.pri.sr0)) = some (0xB6A3, 0x7658) := by decide

/-- `SE = EXP SI (HI)` -/
theorem test_expHi :
    (after 0x0E600F { ready with pri := { Bank.reset with si := 0xFFFF } }).map
      (fun t => (t.pri.se, t.pri.sb, t.st.astat)) = some (0xF1, 0x0, 0x80) := by decide

/-- `SE = EXP AR (HIX)` -/
theorem test_expHix :
    (after 0x0E6A0F { ready with
        pri := { Bank.reset with ar := 0xFA32 }
        st := { ready.st with astat := 0x4 } }).map
      (fun t => (t.pri.se, t.pri.sb, t.st.astat)) = some (0x1, 0x0, 0x4) := by decide

/-- `SE = EXP AR (HIX)` -/
theorem test_expHix_2 :
    (after 0x0E6A0F { ready with
        pri := { Bank.reset with ar := 0xE35B }
        st := { ready.st with astat := 0x0 } }).map
      (fun t => (t.pri.se, t.pri.sb, t.st.astat)) = some (0xFE, 0x0, 0x80) := by decide

/-- `SE = EXP SI (LO)` -/
theorem test_expLo :
    (after 0x0E700F { ready with
        pri := { Bank.reset with si := 0xF6D4, se := 0xF1 }
        st := { ready.st with astat := 0x80 } }).map
      (fun t => (t.pri.se, t.pri.sb, t.st.astat)) = some (0xED, 0x0, 0x80) := by decide

/-- `SE = EXP SI (LO)` -/
theorem test_expLo_2 :
    (after 0x0E700F { ready with
        pri := { Bank.reset with si := 0xFFFF, se := 0xF1 }
        st := { ready.st with astat := 0x80 } }).map
      (fun t => (t.pri.se, t.pri.sb, t.st.astat)) = some (0xE1, 0x0, 0x80) := by decide

/-- `SB = EXPADJ SI` -/
theorem test_expAdj :
    (after 0x0E780F { ready with pri := { Bank.reset with si := 0xF5B1, sb := 0x10 } }).map
      (fun t => (t.pri.se, t.pri.sb, t.st.astat)) = some (0x0, 0x1D, 0x0) := by decide

/-- `SB = EXPADJ SI` -/
theorem test_expAdj_2 :
    (after 0x0E780F { ready with pri := { Bank.reset with si := 0x176, sb := 0x1D } }).map
      (fun t => (t.pri.se, t.pri.sb, t.st.astat)) = some (0x0, 0x1D, 0x0) := by decide

/-- `TOPPCSTACK = AX0` -/
theorem test_pushTop :
    (after 0x0D0CF0 { ready with pri := { Bank.reset with ax0 := 0xC123 } }).map
      (fun t => (t.seq.pcStk.entries, t.sstat)) = some ([0x0123], 0x54) := by decide

/-- `AX0 = TOPPCSTACK` -/
theorem test_popTop :
    (after 0x0D030F { ready with
        seq := { ready.seq with
          pcStk := { entries := [0x0456], n := 1, ovf := false, flip := false } } }).map
      (fun t => (t.pri.ax0, t.seq.pcStk.entries)) = some (0x456, [0x0456]) := by decide

/-- `AR = SB` -/
theorem test_moveReg :
    (after 0x0D03A6 { ready with pri := { Bank.reset with sb := 0x10 } }).map (fun t => t.pri.ar) =
      some 0xFFF0 := by decide

/-- `AR = SE` -/
theorem test_moveReg_2 :
    (after 0x0D00A9 { ready with pri := { Bank.reset with se := 0xFD } }).map (fun t => t.pri.ar) =
      some 0xFFFD := by decide

/-- `ENA M_MODE, DIS AR_SAT` -/
theorem test_modeControl :
    (after 0x0C3800 { ready with st := { ready.st with mstat := 0xB } }).map (fun t => t.st.mstat) =
      some 0x13 := by decide

/-- `DIS BIT_REV, DIS AV_LATCH, DIS AR_SAT, DIS M_MODE, DIS TIMER, DIS G_MODE, DIS SEC_REG` -/
theorem test_modeControl_2 :
    (after 0x0CAAA8 { ready with st := { ready.st with mstat := 0x7F } }).map (fun t => t.st.mstat) =
      some 0x0 := by decide

/-- `JUMP (I4)` -/
theorem test_jumpInd :
    (after 0x0B000F { ready with
        dag := { Dag.reset with
          i := #v[0, 0, 0, 0, 0x2345, 0, 0, 0]
          m := #v[0, 0, 0, 0, 0x5, 0, 0, 0]
          l := #v[0, 0, 0, 0, 0x7, 0, 0, 0] } }).map
      (fun t => (t.seq.pc, t.seq.pcStk.entries, t.sstat, t.dag.i[4])) =
      some (0x2345, [], 0x55, 0x2345) := by decide

/-- `CALL (I6)` -/
theorem test_callInd :
    (after 0x0B009F { ready with
        dag := { Dag.reset with i := #v[0, 0, 0, 0, 0, 0, 0x40, 0] } }).map
      (fun t => (t.seq.pc, t.seq.pcStk.entries, t.sstat)) = some (0x0040, [0x0101], 0x54) := by decide

/-- `RTS` -/
theorem test_rts :
    (after 0x0A000F { ready with
        seq := { ready.seq with
          pcStk := { entries := [0x0456], n := 1, ovf := false, flip := false } } }).map
      (fun t => (t.seq.pc, t.seq.pcStk.entries, t.sstat)) = some (0x0456, [], 0x55) := by decide

/-- `RTI` -/
theorem test_rti :
    (after 0x0A001F { ready with
        st := { ready.st with astat := 0xFF, mstat := 0x0, imask := 0x200 }
        seq := { ready.seq with
          pcStk := { entries := [0x0123], n := 1, ovf := false, flip := false }
          stsStk := { entries := [{ astat := 0x05, mstat := 0x10, imask := 0x061 }], n := 1, ovf := false, flip := false } } }).map
      (fun t => (t.seq.pc, t.seq.pcStk.entries, t.st.astat, t.st.mstat, t.st.imask)) =
      some (0x0123, [], 0x5, 0x10, 0x61) := by decide

/-- `IF MV RTI` -/
theorem test_rti_2 :
    (after 0x0A001C { ready with
        st := { ready.st with astat := 0x0, imask := 0x200 }
        seq := { ready.seq with
          pcStk := { entries := [0x0123], n := 1, ovf := false, flip := false }
          stsStk := { entries := [{ astat := 0x05, mstat := 0x10, imask := 0x061 }], n := 1, ovf := false, flip := false } } }).map
      (fun t => (t.seq.pc, t.seq.pcStk.entries, t.sstat, t.st.astat, t.st.imask)) =
      some (0x0101, [0x0123], 0x44, 0x0, 0x200) := by decide

/-- `MODIFY (I1,M1)` -/
theorem test_modify :
    (after 0x090005 { ready with
        dag := { Dag.reset with
          i := #v[0, 0x32, 0, 0, 0, 0, 0, 0]
          m := #v[0, 0x1, 0, 0, 0, 0, 0, 0]
          l := #v[0, 0x3, 0, 0, 0, 0, 0, 0] } }).map
      (fun t => t.dag.i[1]) = some 0x30 := by decide

/-- `DIVQ AX0` -/
theorem test_divq :
    (after 0x071000 { ready with
        pri := { Bank.reset with af := 0x4000, ay0 := 0x0, ax0 := 0x4000 } }).map
      (fun t => (t.pri.af, t.pri.ay0, t.st.astat)) = some (0x0, 0x1, 0x0) := by decide

/-- `DIVS AY1, AX0` -/
theorem test_divs :
    (after 0x060800 { ready with
        pri := { Bank.reset with ay1 := 0x2000, ay0 := 0x0, ax0 := 0x4000 } }).map
      (fun t => (t.pri.af, t.pri.ay0, t.st.astat)) = some (0x4000, 0x0, 0x0) := by decide

/-- `IF MV SAT MR` -/
theorem test_satMr :
    (after 0x050000 { ready with
        pri := { Bank.reset with mr2 := 0x1, mr1 := 0x2345, mr0 := 0x6789 }
        st := { ready.st with astat := 0x40 } }).map
      (fun t => (t.pri.mr2, t.pri.mr1, t.pri.mr0, t.pri.mf, t.st.astat)) =
      some (0x0, 0x7FFF, 0xFFFF, 0x0, 0x40) := by decide

/-- `IF MV SAT MR` -/
theorem test_satMr_2 :
    (after 0x050000 { ready with
        pri := { Bank.reset with mr2 := 0xFE, mr1 := 0x0, mr0 := 0x0 }
        st := { ready.st with astat := 0x40 } }).map
      (fun t => (t.pri.mr2, t.pri.mr1, t.pri.mr0, t.pri.mf, t.st.astat)) =
      some (0xFF, 0x8000, 0x0, 0x0, 0x40) := by decide

/-- `ENA INTS` -/
theorem test_enaInts :
    (after 0x040060 { ready with st := { ready.st with intEnable := false } }).map
      (fun t => t.st.intEnable) = some true := by decide

/-- `DIS INTS` -/
theorem test_disInts :
    (after 0x040040 ready).map (fun t => t.st.intEnable) = some false := by decide

/-- `POP CNTR, POP PC, POP LOOP` -/
theorem test_stackControl :
    (after 0x04001C { ready with
        seq := { ready.seq with
          cntr := 0x3
          cntrValid := true
          pcStk := { entries := [0x0222, 0x0111], n := 2, ovf := false, flip := false }
          loopStk := { entries := [{ last := 0x0150, term := .ce, first := 0 }], n := 1, ovf := false, flip := false }
          cntStk := { entries := [0x0008, 0x0009], n := 2, ovf := false, flip := false } } }).map
      (fun t => (t.seq.pcStk.entries, t.seq.loopStk.entries, t.seq.cntStk.entries, t.seq.cntr, t.sstat)) =
      some ([0x0111], [], [0x0009], 0x8, 0x50) := by decide

/-- `POP STS` -/
theorem test_stackControl_2 :
    (after 0x040003 { ready with
        st := { ready.st with astat := 0xA5, mstat := 0x13, imask := 0x2AA }
        seq := { ready.seq with
          stsStk := { entries := [{ astat := 0x5A, mstat := 0x00, imask := 0x155 }], n := 1, ovf := false, flip := false } } }).map
      (fun t => (t.st.astat, t.st.mstat, t.st.imask, t.sstat)) = some (0x5A, 0x0, 0x155, 0x55) := by decide

/-- `IF FLAG_IN JUMP 0x1234` -/
theorem test_jumpFlagIn :
    (after 0x032346 { ready with flags := { ready.flags with fi := true } }).map
      (fun t => (t.seq.pc, t.seq.pcStk.entries, t.sstat)) = some (0x1234, [], 0x55) := by decide

/-- `IF NOT FLAG_IN CALL 0x3FFF` -/
theorem test_callFlagIn :
    (after 0x03FFFD { ready with flags := { ready.flags with fi := false } }).map
      (fun t => (t.seq.pc, t.seq.pcStk.entries, t.sstat)) = some (0x3FFF, [0x0101], 0x54) := by decide

/-- `SET FL0, RESET FL1, TOGGLE FL2, SET FLAG_OUT` -/
theorem test_flagOut :
    (after 0x0206FF ready).map (fun t => (t.flags.fl0, t.flags.fl1, t.flags.fl2, t.flags.fo)) =
      some (true, false, false, true) := by decide

/-- `MY1 = IO(2047)` -/
theorem test_ioRead :
    (after 0x017FF7 { ready with io := { present := [(0x7FF, 0x5A5A)], out := [] } }).map
      (fun t => t.pri.my1) = some 0x5A5A := by decide

/-- `IO(23) = AX0` -/
theorem test_ioWrite :
    (after 0x018170 { ready with pri := { Bank.reset with ax0 := 0xC3 } }).map (fun t => t.io.out) =
      some [(0x017, 0x00C3)] := by decide

/-- `NOP` -/
theorem test_nop :
    (after 0x000000 { ready with seq := { ready.seq with pc := 0x3FFF } }).map (fun t => t.seq.pc) =
      some 0x0000 := by decide

/-! ### Well-formed instructions: an ill-formed term for each check (43_move.md R361; 45_misc.md R462 to R465) -/

theorem test_illFormed_aluMove : Instr.wellFormed (.aluMove .result .add .y0 .x0 .ar .ar) = false := by decide
theorem test_illFormed_loadReg : Instr.wellFormed (.loadReg .sstat 0) = false := by decide
theorem test_illFormed_storeReg_ifc : Instr.wellFormed (.storeReg .ifc 0) = false := by decide
theorem test_illFormed_storeReg_owrcntr : Instr.wellFormed (.storeReg .owrcntr 0) = false := by decide
theorem test_illFormed_loadRegImm_sstat : Instr.wellFormed (.loadRegImm .sstat 0) = false := by decide
theorem test_illFormed_loadRegImm_pmovlay : Instr.wellFormed (.loadRegImm .pmovlay 0) = false := by decide
theorem test_illFormed_loadRegImm_dmovlay : Instr.wellFormed (.loadRegImm .dmovlay 0) = false := by decide
theorem test_illFormed_pushTop : Instr.wellFormed (.pushTop .astat) = false := by decide
theorem test_illFormed_popTop : Instr.wellFormed (.popTop .cntr) = false := by decide
theorem test_illFormed_moveReg_dst : Instr.wellFormed (.moveReg .sstat .astat) = false := by decide
theorem test_illFormed_moveReg_src : Instr.wellFormed (.moveReg .astat .ifc) = false := by decide

/-! ### Reserved words (30_encoding.md R192) -/

theorem test_reserved :
    decode 0x000001 = .reserved .nonZeroFixed ∧
    decode 0x028003 = .reserved .slowDiv ∧
    decode 0x060000 = .reserved .divsY ∧
    decode 0x0E010F = .reserved .shifterX ∧
    decode 0x0F4000 = .reserved .shifterFn ∧
    decode 0x3C0002 = .reserved .regAccess ∧
    decode 0x0D03AC = .reserved .regAccess ∧
    decode 0x34000C = .reserved .regCode ∧
    decode 0x0D0FF0 = .reserved .topPcStack ∧
    decode 0x3C000F = .reserved .regCode ∧
    decode 0x8C000F = .reserved .regCode := by decide

/-! ### The step -/

/-- The first instruction after reset is the word placed where the step fetches: AR = PASS 1. -/
theorem test_step_runs_word :
    (nextOf (step (State.reset.withFetchWord 24 0x22380F))).map (fun t => (t.pri.ar, t.seq.pc, t.freeCtr)) =
      some (1, 1, 1) := by decide

/-- The table's numbering of a word's bits is the word itself: one 24-bit word an instruction. -/
theorem test_decodeTableWord : decodeTableWord 24 0x22600F = some (.aluAdd .result .y0 .x0 .always) := by decide

/-- From reset the first step is a cycle of the BDMA boot; the core is held. -/
theorem test_step_reset :
    (nextOf (step State.reset)).map (fun t => (t.core, t.bdma.wait, t.seq.pc)) = some (.heldBdma, 47, 0) := by decide

/-- Five cycles into a BDMA byte access of 16 a bus request waits, and between two it is granted at once (70_reset_and_hazards.md
R731 (e)). -/
theorem test_busRequest_byte : [37, 32].map (fun n =>
    (nextOf (step { State.reset with
        env := [.busRequest true], bdma := { State.reset.bdma with wait := n } })).map (fun t => (t.br, t.bg, t.busTaken))) =
      [some (true, false, true), some (true, true, true)] := by decide

/-- The grant comes at the end of the byte access, and freezes the next. -/
theorem test_busGrant_byte : [34, 33].map (fun n =>
    (nextOf (step { State.reset with br := true, bdma := { State.reset.bdma with wait := n } })).map (fun t =>
      (t.bg, t.bdma.wait))) = [some (false, 33), some (true, 32)] := by decide

/-- A PDFORCE stored by an autobuffer transfer is recognised in the next cycle of IDLE (60_exceptions.md R541, R550). -/
theorem test_idle_pdforce :
    let s := { ready with core := .idle 1, sp0 := { ready.sp0 with rxReq := true, rx := 0x2000 }
                          dag := { ready.dag with i := ready.dag.i.set 0 0x3FEF } }
    (nextOf (step s)).map (fun t => (t.lat.pdDue, t.irq.latchPwd)) = some (true, false) ∧
    (nextOf (step { ready with core := .idle 1, lat := { ready.lat with pdDue := true } })).map (fun t =>
      (t.lat.pdDue, t.irq.latchPwd, t.interrupt)) = some (false, true, some .powerdown) := by decide

/-- An edge on IRQE is latched, but not in reset (60_exceptions.md R522; 70_reset_and_hazards.md R691). -/
theorem test_irqPin_edge : [CoreState.running, .inReset].map (fun c =>
    (nextOf (step { ready with core := c, env := [.irqPin 4 false] })).map (fun t => (t.irq.latch, t.irq.pins))) =
      [some (0x010, 0x3EF), some (0, 0x3EF)] := by decide

/-- PMOVLAY and DMOVLAY loaded with a constant (45_misc.md R464, R465). -/
theorem test_loadPmovlay : (after 0x34005E ready).map (fun t => t.st.pmovlay) = some 5 := by decide
theorem test_loadDmovlay : (after 0x34006F ready).map (fun t => t.st.dmovlay) = some 6 := by decide

/-- IDLE waits at the next address, IDLE (32) with the clock divided (44_program_flow.md R430). -/
theorem test_idle : (after 0x028000 ready).map (fun t => (t.core, t.seq.pc)) = some (.idle 1, 0x0101) := by decide
theorem test_idleSlow : (after 0x028002 ready).map (fun t => (t.core, t.seq.pc)) = some (.idle 32, 0x0101) := by decide

/-- A waiting cycle of IDLE (32) is 32 processor cycles long, and one for all that is internal: the timer counts once, and the BDMA
byte accesses advance by one cycle (70_reset_and_hazards.md R690). -/
theorem test_idleSlow_cycle :
    (nextOf (step { ready with
        core := .idle 32
        st := { ready.st with mstat := 0x20 }
        timer := { tperiod := 9, tcount := 9, tscale := 0, tps := 0 }
        bdma := { ready.bdma with active := true, wait := 5 } })).map (fun t => (t.clock, t.timer.tcount, t.bdma.wait)) =
      some (32, 8, 4) := by decide

/-- Type 22 is refused (30_encoding.md R192 item 1). -/
theorem test_type22 : exec (.type22 0x1234) ready = .refused (.reservedWord .type22) := by rfl

/-! ### Interrupts and devices -/

/-- IRQE, level 4, goes to 0x0018 with the PC and the status pushed and IMASK cleared (60_exceptions.md R521, R540, R542). -/
theorem test_takeInterrupt :
    let t := ({ ready with st := { ready.st with imask := 0x210, astat := 0x05 } }).takeInterrupt (.level 4)
    (t.seq.pc, t.seq.pcStk.entries, t.seq.stsStk.entries, t.st.imask) =
      (0x0018, [0x0100], [{ astat := 0x05, mstat := 0, imask := 0x210 }], 0) := by decide

/-- The word at the vector is fetched in the entry, before a transfer that follows it (60_exceptions.md R540; 20_memory.md R133). -/
theorem test_enterInterrupt :
    let t := ({ ready with mem := [(0x48, 0x40), (0x49, 0x12)] } : State).enterInterrupt (.level 4)
    (t.seq.pc, t.seq.prefetch, { t with mem := [] }.fetch, t.clock) = (0x0018, some 0x401200, some 0x401200, ready.clock + 1) := by
  decide

/-- PDFORCE reads as 0 unless it was written 1 (10_state.md R49, U10). -/
theorem test_pdforceReads : State.reset.readMmr 15 = 0 ∧ (ready.writeMmr 15 0xD003).readMmr 15 = 0xD003 := by decide

/-- With nesting the levels above the one taken stay unmasked (60_exceptions.md R542). -/
theorem test_takeInterrupt_nesting :
    (({ ready with
        st := { ready.st with imask := 0x3FF }
        lat := { ready.lat with icntlEff := 0x10 } }).takeInterrupt (.level 4)).st.imask = 0x3E0 := by decide

/-- The timer: a count of 0 reloads from TPERIOD and requests level 0 (60_exceptions.md R560). -/
theorem test_timerTick :
    let t := ({ ready with timer := { tperiod := 5, tcount := 0, tscale := 1, tps := 1 } }).timerTick 0
    (t.timer.tcount, t.timer.tps, t.irq.latch) = (5, 0, 1) := by decide

/-- A timer request waits two cycles to be synchronised; one forced through IFC does not (60_exceptions.md R545, R561, R526). -/
theorem test_timerLatency :
    let s := { ready with
      st := { ready.st with imask := 1 }
      irq := { ready.irq with latch := 1, timerWait := 2 } }
    (s.interrupt, s.timerSync.timerSync.interrupt,
      (({ s with lat := { s.lat with ifcDue := 0x0100 } }).ifcStep).interrupt) =
      (none, some (.level 0), some (.level 0)) := by decide

/-- A second write of TX starts its companding over (62_serial_ports.md R593): `compress_a(0x7FFF)` is 0xAA (R592). -/
theorem test_compandOnce :
    let a := (({ ready.sp0 with ctl := 0x003F }).writeTx 0).compandStep true true 0
    let b := (a.writeTx 0x7FFF).compandStep true true 0
    (b.tx, (b.compandStep true true 0).tx, ((b.compandStep true true 0).compandStep true true 0).tx) =
      (0x7FFF, 0xFFAA, 0xFFAA) := by decide

/-- AR_SAT has no effect on NONE, in either reading of the flags (40_alu.md R262): 0x7FFF + 1 is negative, and overflows. -/
theorem test_none_arSat :
    let s := { ready with
      cfg := { ready.cfg with aluSatFlags := true }
      st := { ready.st with mstat := 0x08 }
      pri := { ready.pri with ax0 := 0x7FFF, ay0 := 1 } }
    ((nextOf (exec (.aluNone .add .y0 .x0) s)).map (fun t => t.st.astat),
      (nextOf (exec (.aluAdd .result .y0 .x0 .always) s)).map (fun t => (t.pri.ar, t.st.astat))) =
      (some 0x06, some (0x7FFF, 0x04)) := by decide

/-- SPORT1's expansion waits a cycle for the companded word SPORT0 receives (62_serial_ports.md R593): `expand_a(0xAA)` is
0x0FC0 (R592). -/
theorem test_expandContention :
    let s := { ready with
      sp0 := { ready.sp0 with ctl := 0x0037 }
      sp1 := { ready.sp1 with ctl := 0x0037, rx := 0x00AA, expDue := true } }
    let t := (s.rxWord 0 0x00D5).compandStep
    (s.compandStep.sp1.rx, t.sp1.rx, t.compandStep.sp1.rx, t.compandStep.sp1.expDue) = (0x0FC0, 0x00AA, 0x0FC0, false) := by
  decide

/-- A host read between the halves of a written word: the port goes on, the core untouched (61_peripherals.md R629, U47). -/
theorem test_idmaSwitched :
    (nextOf (({ ready with pins := 4 }.setIdma { ready.idma with half := .secondWrite }).idmaEvent .read)).map
      (fun t => (t.idma.pend, t.seq.pc)) = some (some .read, 0x0100) ∧
    (nextOf ((ready.setIdma { ready.idma with half := .secondWrite }).idmaStep .read)).isSome = true :=
  ⟨by decide, rfl⟩

/-- A grant between the fetch of the next word and a read of an external Data Memory page (70_reset_and_hazards.md R731). -/
theorem test_grantAmid :
    let s := { ready with
      amid := 1
      st := { ready.st with pmovlay := 1, dmovlay := 1 }
      seq := { ready.seq with pc := 0x2000, prefetch := some 0x600000 } }
    (nextOf s.runInstr).map (fun t => (t.bg && t.stalled, t.seq.pc, t.seq.prefetch, t.held.fetch.isSome, t.held.pm.isSome)) =
      some (true, 0x2000, some 0x600000, true, false) := by decide

/-- One BDMA word, three bytes to Program Memory (61_peripherals.md R612). -/
theorem test_bdmaWord :
    (nextOf (({ ready with
        bdma := { ready.bdma with ctl := 0, bwcount := 1, biad := 0x0010, active := true }
        mem := [(0x400000, 0x12), (0x400001, 0x34), (0x400002, 0x56)] }).bdmaWord)).map
      (fun t => (t.readPm 0x0010, t.bdma.active, t.bdma.biad, t.bdma.bead, t.irq.latch)) =
      some (0x123456, false, 0x0011, 0x0003, 0x008) := by decide

/-- A serial word of eight bits, sign-extended (62_serial_ports.md R584). -/
theorem test_serialReceive :
    (nextOf (({ ready with
        ctl := { ready.ctl with sysCtl := 0x1007 }
        sp0 := { ready.sp0 with ctl := 0x0017 } }).sportRxEvent 0 0x1285)).map (fun t => (t.sp0.rx, t.irq.latch)) =
      some (0xFF85, 0x020) := by decide

/-- The codes of zero (62_serial_ports.md R592). -/
theorem test_companding : compressMu 0 = 0xFF ∧ expandMu 0xFF = 0 ∧ compressA 0 = 0xD5 ∧ expandA 0xD5 = 1 := by decide

/-- Modulus addressing, the source's example 5, 6, 4 (20_memory.md R121). -/
theorem test_nextAddr_modulus : nextAddr 0 5 1 3 = 6 ∧ nextAddr 0 6 1 3 = 4 ∧ nextAddr 0 4 0x3FFF 3 = 6 := by decide

/-- Bit reversal (20_memory.md R122). -/
theorem test_bitrev14 : bitrev14 0x1234 = 0x0B12 := by decide

/-- The end of a counted loop: the second pass of two falls out (44_program_flow.md R421). -/
theorem test_loop_end : (after 0 (inLoopOf .ce 1)).map (fun t => (t.seq.pc, t.seq.cntr, t.sstat)) = some (0x0101, 0, 0x55) := by
  decide
theorem test_loop_back : (after 0 (inLoopOf .ce 2)).map (fun t => (t.seq.pc, t.seq.cntr, t.sstat)) = some (0x00F0, 1, 0x14) := by
  decide

/-- A count popped into CNTR is valid, and a later write pushes it (10_state.md R73). -/
theorem test_pop_valid :
    let s := counted 1
    let t := ({ s with seq := { s.seq with cntrValid := false } }).countCe
    (t.seq.cntr, t.seq.cntrValid, (t.writeCntr 5).seq.cntStk.entries) = (7, true, [7]) := by decide

/-! ### Witnesses: a state and operands that meet the hypotheses of each statement -/

theorem witness_DecodeOfEncode : Instr.wellFormed (.storeReg .sb 0x3FFF) = true := by decide
theorem witness_EncodeOfDecode : decode 0x22600F = .instr (.aluAdd .result .y0 .x0 .always) := by decide

theorem witness_StepRunsDecoded : (ready.withFetchWord 24 0x22600F).Ready ∧
    (ready.withFetchWord 24 0x22600F).fetch = some 0x22600F ∧
    decode 0x22600F = .instr (.aluAdd .result .y0 .x0 .always) :=
  ⟨by constructor <;> decide, by decide, by decide⟩

theorem witness_StepRunsDecoded_reserved : (ready.withFetchWord 24 0x080001).Ready ∧
    (ready.withFetchWord 24 0x000001).Ready ∧
    (ready.withFetchWord 24 0x000001).fetch = some 0x000001 ∧ decode 0x000001 = .reserved .nonZeroFixed :=
  ⟨by constructor <;> decide,
    by constructor <;> decide, by decide, by decide⟩

/-- An ADSP-2184 has Program Memory up to 0x0FFF. -/
def beyond : State :=
  { ready with
    cfg := { ready.cfg with member := .adsp2184 }
    seq := { ready.seq with pc := 0x1000 } }

theorem witness_StepRunsDecoded_none : beyond.Ready ∧ beyond.fetch = none :=
  ⟨by constructor <;> decide, by decide⟩

/-- The same without a bus grant, and in Go mode with the bus granted where the fetch is external: an ADSP-2188N started
without a boot fetches address 0 from outside. -/
def ownFetching : State :=
  { ready with
    bg := true
    pins := 2
    st := { ready.st with mstat := 0x40 }
    seq := { ready.seq with pc := 0 } }

theorem witness_StepRunsDecoded_ownFetch : ownFetching.Ready ∧ ownFetching.busTaken = true ∧ ownFetching.ownFetch = true ∧
    (ready.busTaken && ready.ownFetch) = false :=
  ⟨by constructor <;> decide, by decide, by decide, by decide⟩

/-- In Go mode with the bus granted; the next fetch is external. -/
def granted : State :=
  { ready with
    bg := true
    st := { ready.st with mstat := 0x40, pmovlay := 1 }
    seq := { ready.seq with pc := 0x2000, prefetch := some 0 } }

theorem witness_StepRunsDecoded_bus : granted.Ready ∧ granted.busTaken = true ∧ granted.fetch = some 0 ∧
    (nextOf (exec .nop granted)).map (fun t => granted.needsBus t .nop) = some true :=
  ⟨by constructor <;> decide, by decide, by decide, by decide⟩

/-- A bus request that waits for a BDMA byte access. -/
def waiting : State :=
  { ready with br := true, bdma := { ready.bdma with active := true, wait := 5 } }

theorem witness_StepRunsDecoded_waiting : waiting.Ready ∧ waiting.bg = false ∧ waiting.busTaken = true ∧
    ({ waiting with bdma := { waiting.bdma with wait := 16 } }).busTaken = false :=
  ⟨by constructor <;> decide, by decide, by decide, by decide⟩

theorem witness_FinishKeeps : ready.held = .none ∧ ready.lat.use.retPop = false ∧ ready.lat.popDue = false ∧
    ready.lat.ifcDue = 0 ∧ ready.st.icntl = ready.lat.icntlEff ∧ ready.sp0.compDue = false ∧ ready.sp1.expDue = false := by
  decide
theorem witness_FinishKeeps_popDue :
    let s := { ready with lat := { ready.lat with popDue := true } }
    ready.lat.use.retPop = false ∧ s.lat.popDue = true ∧ ready.lat.use.pcStack = false ∧ ready.lat.use.full = false := by
  decide

theorem witness_BoundaryPriority_idma :
    let s := { ready with idma := { ready.idma with pend := some .read } }
    s.env = [] ∧ s.core = .running ∧ s.stalled = false ∧ s.busHalts = false ∧ s.idma.pend = some .read := by decide
theorem witness_BoundaryPriority_bdma :
    let s := { ready with bdma := { ready.bdma with active := true, wait := 0 } }
    s.env = [] ∧ s.core = .running ∧ s.stalled = false ∧ s.busHalts = false ∧ s.idma.pend = none ∧
      s.bdmaReady = true := by decide
theorem witness_BoundaryPriority_autobuffer :
    let s := { ready with sp1 := { ready.sp1 with rxReq := true } }
    s.env = [] ∧ s.core = .running ∧ s.stalled = false ∧ s.busHalts = false ∧ s.idma.pend = none ∧
      s.bdmaReady = false ∧ s.autobuffer.isSome = true := by decide
theorem witness_BoundaryPriority_autobuffer_external :
    let s := { ready with
      sp1 := { ready.sp1 with txReq := true }
      st := { ready.st with mstat := 0x40, dmovlay := 2 }
      bg := true }
    s.env = [] ∧ s.core = .running ∧ s.stalled = false ∧ s.busHalts = false ∧ s.idma.pend = none ∧
      s.bdmaReady = false ∧ s.autobuffer.isSome = true ∧ s.autoExtern = true ∧ s.busTaken = true := by decide
theorem witness_BoundaryPriority_interrupt :
    let s := { asking with core := .idle 16 }
    s.env = [] ∧ s.core = .idle 16 ∧ s.stalled = false ∧ s.busHalts = false ∧ s.idma.pend = none ∧
      s.bdmaReady = false ∧ s.autobuffer = none ∧ s.interrupt = some (.level 9) := by decide
/-- An entry whose vector is in external memory, the bus free and taken. -/
def outside (bg : Bool) : State :=
  { ownFetching with
    bg := bg
    irq := asking.irq
    st := { asking.st with mstat := 0x40 }
    lat := { asking.lat with icntlEff := asking.lat.icntlEff } }

theorem witness_BoundaryPriority_interrupt_external :
    (outside true).env = [] ∧ (outside true).core = .running ∧ (outside true).stalled = false ∧
    (outside true).busHalts = false ∧ (outside true).interrupt = some (.level 9) ∧ (outside true).busTaken = true ∧
    ((outside true).takeInterrupt (.level 9)).fetchExtern = true ∧ (outside false).interrupt = some (.level 9) ∧
    (outside false).busTaken = false ∧ ((outside false).takeInterrupt (.level 9)).fetchExtern = true := by decide

theorem witness_BoundaryPriority_idle :
    let s := { ready with core := .idle 64 }
    s.env = [] ∧ s.core = .idle 64 ∧ s.stalled = false ∧ s.busHalts = false ∧ s.idma.pend = none ∧
      s.bdmaReady = false ∧ s.autobuffer = none ∧ s.interrupt = none := by decide

/-- RESET asserted in the run, and released with each kind of levels on the mode pins. -/
theorem witness_ResetValues : { ready with env := [.resetAssert] }.env = .resetAssert :: [] ∧
    (let s := { ready with env := [.resetRelease 5], core := .inReset }
     s.env = .resetRelease 5 :: [] ∧ s.core = .inReset) ∧
    bootOf ready.cfg.member 0 = some (.bdma, false) ∧ bootOf ready.cfg.member 5 = some (.idma, true) ∧
    bootOf ready.cfg.member 2 = some (.none, false) ∧ bootOf ready.cfg.member 1 = none :=
  ⟨rfl, ⟨rfl, rfl⟩, by decide, by decide, by decide, by decide⟩

theorem witness_DmStoreThenRead : Memory.wf ready.mem = true ∧ (0x3FDF : Addr).toNat < 0x3FE0 ∧
    (ready.dmLoc ready.st.dmovlay 0x3FDF).isSome = true ∧ ready.hostMode = false ∧ (0x3FDE : Addr) ≠ 0x3FDF ∧
    0x3FE0 ≤ (0x3FE0 : Addr).toNat := by decide
theorem witness_DmStoreThenRead_pages : 0x2000 ≤ (0x2000 : Addr).toNat ∧ (0x1FFF : Addr).toNat < 0x2000 ∧
    (0x1FFF : Addr).toNat < 0x3FE0 ∧ ready.hostMode = false ∧ (1 : BitVec 4) ≠ 8 ∧ ready.cfg.member = .adsp2188N ∧
    ready.dmLoc 1 0x1FFF = some { base := 0x5FFFE, ext := true } ∧ ready.dmLoc 8 0x1FFF = some { base := 0x5BFFE, ext := false } ∧
    ready.dmLoc 3 0x1FFF = none ∧ ready.dmLoc 0 0x2000 = some { base := 0x40000, ext := false } := by decide
theorem witness_PmStoreThenRead : Memory.wf ready.mem = true ∧
    ready.pmLoc ready.st.pmovlay 0x3FFF = some { base := 0xBFFD, ext := false } ∧ ready.hostMode = false ∧
    ready.noBootMap = false ∧ (0x1FFF : Addr) ≠ 0x3FFF := by decide
theorem witness_PmStoreThenRead_external :
    let s := { ready with st := { ready.st with pmovlay := 2 } }
    Memory.wf s.mem = true ∧ s.pmLoc s.st.pmovlay 0x2000 = some { base := 0x2A000, ext := true } ∧
      s.hostMode = false := by decide

theorem witness_PmStoreThenRead_pages : 0x2000 ≤ (0x2000 : Addr).toNat ∧ (0x1FFF : Addr).toNat < 0x2000 ∧
    ready.hostMode = false ∧ ready.noBootMap = false ∧ ({ ready with pins := 2 }).noBootMap = true ∧ (2 : BitVec 4) ≠ 7 ∧
    (ready.pmLoc 2 0x2000).isSome = true ∧ (ready.pmLoc 7 0x2000).isSome = true ∧ ready.pmLoc 8 0x2000 = none ∧
    beyond.pmLoc 0 0x1FFF = none ∧ ready.pmLoc ready.st.pmovlay 0x1FFF = some { base := 0x5FFD, ext := false } := by decide

theorem witness_StepKeepsOk : ready.ok = true ∧ (nextOf (step (ready.withFetchWord 24 0))).isSome = true ∧
    (ready.withFetchWord 24 0).ok = true := by decide
theorem witness_OnlyTheseReach : storesMemory (.moveReg .px .astat) = false ∧ reachesDevices (.moveReg .px .astat) = false ∧
    writesControl (.moveReg .px .astat) = false ∧ (nextOf (exec (.moveReg .px .astat) ready)).isSome = true := by decide

theorem witness_AluAdditions : ready.cond .always = true := by decide
theorem witness_AluSubtractions : ready.cond .ne = true := by decide
theorem witness_AluLogicals : ready.cond .ge = true := by decide
theorem witness_AluAbsoluteAndPassConstants : ready.cond .pos = true := by decide
theorem witness_Division_loop : (inLoopOf .ce 2).inLoop = true ∧ ready.inLoop = false := by decide
theorem witness_ConditionFalse : guard .satMr = some .mv ∧ ready.cond .mv = false := by decide
theorem witness_MacProducts : ready.cond .notMv = true := by decide
theorem witness_MacRoundings : ready.cond .notCe = true := by decide
theorem witness_SaturateMr : astatMV (0x40 : BitVec 8) = true := by decide
theorem witness_SaturateMr_signs :
    (({ Bank.reset with mr2 := 0xFE }).mr2.getLsbD 7) = true ∧ (({ Bank.reset with mr2 := 0x01 }).mr2.getLsbD 7) = false ∧
    astatMV State.reset.st.astat = false := by decide
theorem witness_ShiftsBySe : ready.cond .notAc = true := by decide
theorem witness_Exponents : ready.cond .always = true ∧ RedundantSigns 0x4000 0 :=
  ⟨by decide, by simp only [RedundantSigns]; decide⟩
theorem witness_Exponents_all : RedundantSigns 0xFFFF 15 := by simp only [RedundantSigns]; decide
theorem witness_Exponents_lo : (BitVec.ofInt 8 (-15) : BitVec 8).toInt = -15 := by decide

theorem witness_ComputeAndMove : compWrites .result (.alu .add .y0 .x0) .ar = true ∧
    compWrites .feedback (.alu .add .y0 .x0) .ar = false ∧ shiftWrites .expHi .se = true ∧
    shiftWrites .lshiftHi .se = false := by decide

theorem witness_StoresToDm : Memory.wf ready.mem = true ∧ (ready.dmLoc ready.st.dmovlay 0x3FDF).isSome = true ∧
    0x3FE0 ≤ (0x3FE0 : Addr).toNat ∧ beyond.dmLoc beyond.st.dmovlay 0x2FFF = none ∧
    Memory.wf beyond.mem = true := by decide
theorem witness_StoresToPm : Memory.wf ready.mem = true ∧ (ready.pmLoc ready.st.pmovlay 0x3FFF).isSome = true ∧
    beyond.pmLoc beyond.st.pmovlay 0x1000 = none ∧ Memory.wf beyond.mem = true := by decide
theorem witness_StoresToPm_host :
    let s := { ready with pins := 4, st := { ready.st with pmovlay := 1 } }
    s.pmLoc s.st.pmovlay 0x3FFF = some { base := pmPlace 6 1, ext := true } ∧ s.hostMode = true := by decide

theorem witness_LoadDataRegisterImmediate : (Dreg.ar ≠ .mr1) ∧ (Dreg.mr1 = .mr1 → Dreg.ar ≠ .mr2) := by decide
/-- A board that has presented a word at two I/O addresses, at one of them twice. -/
def presented : State :=
  { ready with env := [.ioPresent 5 9], io := { ready.io with present := [(7, 0x1111), (5, 0x2222), (5, 0x3333)] } }

theorem witness_RegisterMoves : presented.io.present = [(7, 0x1111)] ++ (5, 0x2222) :: [(5, 0x3333)] ∧
    (∀ p ∈ [((7 : BitVec 11), (0x1111 : Word))], p.1 ≠ 5) ∧ presented.hostMode = false ∧
    presented.env = .ioPresent 5 9 :: [] :=
  ⟨rfl, by simp, by decide, rfl⟩
/-- In Host Memory Mode the addresses 5 and 1 are one. -/
theorem witness_RegisterMoves_host :
    let s := { presented with pins := 4, io := { presented.io with present := [(1, 0x4444)] } }
    s.hostMode = true ∧ s.io.present = [] ++ ((if s.hostMode then 5 &&& 1 else 5 : BitVec 11), 0x4444) :: [] :=
  ⟨by decide, rfl⟩
theorem witness_RegisterLoads : (Reg.astat ≠ .cntr) ∧ (Reg.cntr = .d .mr1 → Reg.astat ≠ .d .mr2) ∧ Reg.cntr ≠ .mstat ∧
    (Reg.cntr = .cntr ∨ Reg.cntr = .owrcntr → Reg.astat ≠ .cntr ∧ Reg.astat ≠ .owrcntr ∧ Reg.astat ≠ .sstat) := by decide

theorem witness_TopPcStackMoves : (stacked 1).atLoopEnd = false ∧ (Reg.d .ax0).pairsTop = true ∧
    (stacked 1).seq.pcStk.entries = [0x0040] ∧ 0 < (stacked 1).seq.pcStk.n ∧ (stacked 1).seq.pcStk.n ≤ 16 := by decide
theorem witness_TopPcStackMoves_full : (stacked 16).atLoopEnd = false ∧
    (stacked 16).seq.pcStk.entries = 0x0040 :: List.replicate 15 0x0040 ∧ (stacked 16).seq.pcStk.n ≤ 16 := by decide

theorem witness_AddressGenerators : (0 : Addr) = 0 ∧ (3 : Addr).toNat ≤ 2 ^ 2 ∧ 2 ^ 2 < 2 * (3 : Addr).toNat ∧
    (2 : Addr).toInt < (3 : Addr).toNat ∧ -((3 : Addr).toNat : Int) < (2 : Addr).toInt ∧
    (6 : Addr).toNat < (6 : Addr).toNat / 2 ^ 2 * 2 ^ 2 + (3 : Addr).toNat := by decide
theorem witness_AddressGenerators_back : (8 : Addr).toNat ≤ 2 ^ 3 ∧ 2 ^ 3 < 2 * (8 : Addr).toNat ∧
    -((8 : Addr).toNat : Int) < (0x3FF9 : Addr).toInt ∧ (0x3FF9 : Addr).toInt < (8 : Addr).toNat ∧
    (16 : Addr).toNat < (16 : Addr).toNat / 2 ^ 3 * 2 ^ 3 + (8 : Addr).toNat := by decide

theorem witness_JumpsAndCalls : Cond.always ≠ .notCe ∧ ready.cond .always = true ∧ ready.cond .eq = false ∧
    ready.fi = false ∧ ready.fi ≠ true ∧
    ({ ready with ctl := { ready.ctl with sysCtl := 0x0007 } }).ctl.sysCtl.getLsbD 10 = false := by decide
theorem witness_CountingTransfers : ready.seq.cntr ≠ 1 ∧ ready.cfg.callNotCeCounts = true ∧
    (counted 0).seq.cntr = 1 ∧ (counted 0).atLoopEnd = false ∧ (counted 0).seq.cntStk.n ≤ 0 := by decide
theorem witness_CountingTransfers_pop : (counted 4).seq.cntr = 1 ∧
    (counted 4).seq.cntStk.entries = 7 :: List.replicate 3 7 ∧ 0 < (counted 4).seq.cntStk.n ∧
    (counted 4).seq.cntStk.n ≤ 4 ∧ (counted 1).seq.cntStk.entries = [7] ∧ 0 < (counted 1).seq.cntStk.n := by decide
theorem witness_Returns : (stacked 16).cond .always = true ∧ (stacked 16).cond .mv = false ∧
    (stacked 16).seq.pcStk.entries = 0x0040 :: List.replicate 15 0x0040 ∧ (stacked 16).seq.pcStk.n ≤ 16 ∧
    (stacked 1).seq.stsStk.entries = [{ astat := 5, mstat := 1, imask := 3 }] ∧ 0 < (stacked 1).seq.stsStk.n ∧
    (stacked 1).seq.stsStk.n ≤ (stacked 1).cfg.stsDepth := by decide
theorem witness_DoUntil : ready.atLoopEnd = false ∧ ¬(4 ≤ ready.seq.loopStk.n ∨ 16 ≤ ready.seq.pcStk.n) ∧
    ¬16 ≤ (stacked 15).seq.pcStk.n ∧ 16 ≤ (stacked 16).seq.pcStk.n ∧ (stacked 16).atLoopEnd = false := by decide

theorem witness_LoopEnd_back : (inLoopOf .ce 2).atLoopEnd = true ∧ (inLoopOf .ce 2).lat.use = Use.none ∧
    (inLoopOf .ce 2).topLoop.term = .ce ∧ (inLoopOf .ce 2).seq.cntr ≠ 1 := by decide
theorem witness_LoopEnd_out : (inLoopOf .ce 1).atLoopEnd = true ∧ (inLoopOf .ce 1).seq.cntr = 1 ∧
    (inLoopOf .ce 1).seq.cntStk.n ≤ 0 := by decide
theorem witness_LoopEnd_pop :
    let s := { inLoopOf .ce 1 with seq := { (inLoopOf .ce 1).seq with cntStk := { entries := [7], n := 1, ovf := false, flip := false } } }
    s.atLoopEnd = true ∧ s.lat.use = Use.none ∧ s.topLoop.term = .ce ∧ s.seq.cntr = 1 ∧ s.seq.cntStk.entries = [7] ∧
      0 < s.seq.cntStk.n ∧ s.seq.cntStk.n ≤ 4 := by decide
theorem witness_LoopEnd_terms : (inLoopOf .forever 0).atLoopEnd = true ∧ (inLoopOf .forever 0).topLoop.term = .forever ∧
    (inLoopOf .notMv 0).atLoopEnd = true ∧ (inLoopOf .notMv 0).lat.use = Use.none ∧
    (inLoopOf .notMv 0).topLoop.term = .notMv ∧ Term.notMv ≠ .ce := by decide

theorem witness_StackLaws : (0 : Int) ≤ (stacked 15).seq.pcStk.n ∧ (stacked 15).seq.pcStk.n < (16 : Nat) ∧
    ((16 : Nat) : Int) ≤ (stacked 16).seq.pcStk.n ∧ ready.seq.pcStk.isEmpty = true := by decide

theorem witness_IdleInstructions :
    let low := { ready with irq := { ready.irq with pdSeq := true, pwdPin := false } }
    ready.irq.pdSeq = false ∧ (low.irq.pdSeq = true ∧ (low.irq.pwdPin = false ∨ low.irq.pdForced = true)) ∧
      low.bdma.active = false ∧ ({ low with bdma := { low.bdma with active := true } }).bdma.active = true := by decide
theorem witness_StackControl : ready.atLoopEnd = false ∧ (stacked 1).atLoopEnd = false := by decide
theorem witness_ModesAndFlags : ready.cond .always = true := by decide

theorem witness_InterruptEntry : ready.lat.popDue = false ∧
    ({ stacked 1 with lat := { (stacked 1).lat with popDue := true } }).lat.popDue = true ∧
    (({ stacked 1 with lat := { (stacked 1).lat with popDue := true } }).takeInterrupt (.level 0)).seq.pcStk.entries =
      [(stacked 1).seq.pc] := by decide
theorem witness_InterruptChoice : asking.interrupt = some (.level 9) ∧
    ({ asking with st := { asking.st with imask := 1 } }).interrupt = some (.level 0) ∧
    ({ asking with irq := { asking.irq with latchPwd := true } }).interrupt = some .powerdown := by decide
theorem witness_InterruptChoice_pins :
    let s := { ready with env := [.irqPin 2 false], lat := { ready.lat with icntlEff := 2 } }
    s.env = [.irqPin 2 false] ∧ s.isEdge 2 = true ∧ s.ctl.sysCtl.getLsbD 10 = false ∧ s.core ≠ .inReset ∧
      s.irq.pins.getLsbD 2 = true ∧ ready.isEdge 8 = false ∧ ready.isEdge 9 = false := by decide
/-- Both wake-ups, and a falling edge. -/
theorem witness_InterruptChoice_pwd :
    let s := { ready with env := [.pwdPin true], core := .powerDown, irq := { ready.irq with pwdPin := false } }
    s.env = [.pwdPin true] ∧ (s.irq.pwdPin = false ∧ s.core = .powerDown) ∧ s.sp1.auto.getLsbD 12 = false ∧
      ({ s with sp1 := { s.sp1 with auto := 0x1000 } }).sp1.auto.getLsbD 12 = true ∧
      ({ ready with env := [.pwdPin false] }).env = [.pwdPin false] ∧ ready.irq.pwdPin = true := by decide
theorem witness_EntryThenReturn : ready.lat.popDue = false ∧ (stacked 15).lat.popDue = false ∧
    0 ≤ ready.seq.pcStk.n ∧ (stacked 15).seq.pcStk.n < 16 ∧ 0 ≤ (stacked 15).seq.pcStk.n ∧
    0 ≤ (stacked 15).seq.stsStk.n ∧ (stacked 15).seq.stsStk.n < (stacked 15).cfg.stsDepth := by decide

theorem witness_OneCycleActions :
    let t := { ready with lat := { ready.lat with ifcDue := 0x8080, icntlEff := 4 } }
    ready.timerOn = false ∧ t.isEdge 9 = true ∧ t.isEdge 8 = false ∧ ready.st.icntl ≠ t.lat.icntlEff ∧
      9 ∈ [1, 2, 9] ∧ 8 ∉ [1, 2, 9] ∧ 6 ∉ [1, 2, 9] ∧ 6 ≠ 0 ∧
      ({ ready with st := { ready.st with mstat := 0x20 } }).timerOn = true := by decide

theorem witness_TimerPeriod :
    let s := { ready with timer := { tperiod := 5, tcount := 5, tscale := 1, tps := 0 } }
    s.timer.tps = 0 ∧ s.timer.tcount = s.timer.tperiod ∧ s.irq.latch.getLsbD 0 = false ∧ s.lat.tcountSet = false ∧
      11 < (s.timer.tperiod.toNat + 1) * (s.timer.tscale.toNat + 1) := by decide

theorem witness_ControlRegisterReadBack : 16 ∈ [16, 17, 20, 21, 22, 23, 24, 25, 26, 28, 29] ∧
    29 ∈ [16, 17, 20, 21, 22, 23, 24, 25, 26, 28, 29] ∧ ready.bdma.active = false ∧
    ready.cfg.member.hasIdmaOvl = true ∧ (29 ≠ 16 ∧ (16 = 6 → 29 ≠ 5) ∧ (ready.bdma.active = true → 16 = 1 ∨ 16 = 2 → False)) ∧
    State.reset.bdma.active = true ∧ (6 = 6 → 4 ≠ 5) := by decide

theorem witness_SerialReceive :
    let s := { ready with ctl := { ready.ctl with sysCtl := 0x1007 }, sp0 := { ready.sp0 with ctl := 0x0002 } }
    s.serialActive 0 = true ∧ s.mce = false ∧ (s.sport 0).badLen = false ∧ (s.sport 0).companding = false ∧
      (s.sport 0).len = 3 := by decide
theorem witness_SerialReceive_port1 :
    let s := { ready with ctl := { ready.ctl with sysCtl := 0x0C07 }, sp1 := { ready.sp1 with ctl := 0x001F } }
    s.serialActive 1 = true ∧ (s.sport 1).badLen = false ∧ (s.sport 1).companding = false ∧ (s.sport 1).len = 16 := by decide

/-- Port 0 compands by A-law. -/
def companding : State :=
  { ready with
    ctl := { ready.ctl with sysCtl := 0x1007 }
    sp0 := { ready.sp0 with ctl := 0x003B } }

theorem witness_SerialReceive_companding : companding.serialActive 0 = true ∧ companding.mce = false ∧
    (companding.sport 0).badLen = false ∧ (companding.sport 0).companding = true ∧ (companding.sport 0).aLaw = true := by decide

/-- A word has begun to arrive at port 0, which compands by A-law. -/
def arriving : State := { companding with sp0 := { companding.sp0 with transit := .shifting } }

/-- A change of format makes the word any value, one of ISCLK does not, and the port disabled loses it (62_serial_ports.md R582,
R584; 93_implementation_defined.md U61). -/
theorem test_wordInTransit :
    (arriving.writeMmr 22 0x003A).sp0.transit = .mixed ∧ (arriving.writeMmr 22 0x403B).sp0.transit = .shifting ∧
    (arriving.writeMmr 31 0x0407).sp0.transit = .idle ∧
    (nextOf ((arriving.writeMmr 22 0x0017).sportRxEvent 0 0x1285)).map (·.sp0.transit) = some .idle := by decide
theorem witness_SerialReceive_arriving :
    ({ companding with env := [.sportRxStart 0] }.env = .sportRxStart 0 :: [] ∧ companding.serialActive 0 = true) ∧
    arriving.sp0.transit ≠ .mixed ∧ companding.sp0.transit ≠ .mixed ∧ arriving.sportOn 0 = true ∧ companding.sportOn 1 = false ∧
    (companding.sp0.ctl ^^^ 0x403B) &&& 0xBFFF = 0 := by decide

theorem witness_SerialTransmit : companding.serialActive 0 = true ∧ companding.mce = false ∧
    (companding.sport 0).badLen = false ∧ (companding.sport 0).compNew = false ∧ (companding.sport 0).compDue = false ∧
    (companding.sport 0).itfs = false := by decide
theorem witness_SerialTransmit_framed :
    let s := { companding with sp0 := { companding.sp0 with ctl := 0x020F, txFull := true } }
    s.serialActive 0 = true ∧ s.mce = false ∧ (s.sport 0).badLen = false ∧ (s.sport 0).compNew = false ∧
      (s.sport 0).compDue = false ∧ (s.sport 0).itfs = true ∧ (s.sport 0).txFull = true ∧ s.core ≠ .powerDown := by decide
theorem witness_SerialTransmit_nothing :
    let s := { companding with sp0 := { companding.sp0 with ctl := 0x020F } }
    s.serialActive 0 = true ∧ s.mce = false ∧ (s.sport 0).badLen = false ∧
      (s.sport 0).itfs = true ∧ (s.sport 0).txFull = false ∧
      ({ companding.sp0 with compNew := true }).compNew = true ∧ ({ companding.sp0 with compDue := true }).compDue = true := by
  decide
theorem witness_SerialTransmit_powerDown :
    let s := { companding with sp0 := { companding.sp0 with ctl := 0x020F }, core := .powerDown }
    s.serialActive 0 = true ∧ s.mce = false ∧ (s.sport 0).badLen = false ∧ (s.sport 0).itfs = true ∧ s.core = .powerDown := by
  decide

theorem witness_Companding : companding.sp0.companding = true ∧ 8 ≤ 11 ∧ 11 < companding.sp0.len ∧
    ready.sp0.companding = false ∧ (0xFF : BitVec 8) ≠ 0x7F ∧
    ({ ready with sp0 := { ready.sp0 with compDue := true, expDue := true } }).sp0.compDue = true ∧
    ({ ready with sp0 := { ready.sp0 with compDue := true, expDue := true } }).sp0.expDue = true ∧
    ({ ready with sp0 := { ready.sp0 with expBusy := true } }).sp0.expBusy = true ∧
    ready.sp0.compDue = false ∧ ready.sp0.expDue = false ∧ ready.sp0.expBusy = false := by decide

theorem witness_AutobufferTransfer : Memory.wf ready.mem = true ∧
    (ready.dagAddr (Fin.ofNat 8 (ready.sp0.auto.toNat / 16 % 8))).toNat < 0x3FE0 ∧
    (ready.dmLoc ready.st.dmovlay (ready.dagAddr 0)).isSome = true ∧ Memory.wf beyond.mem = true ∧
    beyond.dmLoc beyond.st.dmovlay 0x2FFF = none := by decide
theorem witness_AutobufferTransfer_expanding : ({ ready.sp0 with expDue := true }).expDue = true ∧ ready.sp0.expDue = false := by
  decide
theorem witness_AutobufferTransfer_wraps : (3 : Addr).toNat ≤ 2 ^ 2 ∧ 2 ^ 2 < 2 * (3 : Addr).toNat ∧
    dagWraps 6 1 3 = true ∧ dagWraps 5 1 3 = false ∧ dagWraps 4 0x3FFF 3 = true ∧ dagWraps 5 0x3FFF 3 = false ∧
    dagWraps 0x3FFF 1 0 = false := by decide
theorem witness_AutobufferTransfer_control :
    let s := { ready with dag := { ready.dag with i := ready.dag.i.set 0 0x3FE0 } }
    Memory.wf s.mem = true ∧ 0x3FE0 ≤ (s.dagAddr (Fin.ofNat 8 (s.sp0.auto.toNat / 16 % 8))).toNat := by decide

theorem witness_BdmaWord_request :
    let s := { waiting with env := [.busRequest true], br := false }
    s.env = [.busRequest true] ∧ s.bdma.active = true ∧ s.bdma.wait % (s.bmwait + 1) ≠ 0 ∧ s.core ≠ .powerDown ∧
      ({ s with env := [.busRequest false], bg := true }).env = [.busRequest false] := by decide

/-- SPORT0 in multichannel mode with words of 16 bits, at a slot of a 24-word block. -/
def channels (k : Nat) : State :=
  { ready with
    ctl := { ready.ctl with sysCtl := 0x1000 }
    sp0 := { ready.sp0 with ctl := 0x800F, tx := 0xABCD }
    mc := { rxEn := 0x800001, txEn := 0x800000, slot := k } }

/-- The last slot of a block, both ways, and none after it (62_serial_ports.md R601, R602). -/
theorem test_mcSlot :
    (nextOf (step { channels 23 with env := [.mcSlot 0x1234] })).map (fun t => (t.sp0.rx, t.sp0.tsr, t.irq.latch)) =
      some (0x1234, 0xABCD, 0x060) ∧
    (nextOf (step { channels 24 with env := [.mcSlot 0x1234] })).map (fun t => (t.sp0.rx, t.sp0.tsr, t.irq.latch)) =
      some (0, 0, 0) := by decide

theorem witness_SerialReceive_slots : { channels 23 with env := [.mcSlot 1] }.env = .mcSlot 1 :: [] ∧
    { channels 24 with env := [.mcSync] }.env = .mcSync :: [] ∧ (channels 23).serialActive 0 = true ∧
    (channels 23).mce = true ∧ (channels 23).sp0.badLen = false ∧ (channels 23).mcLen = 24 ∧
    (channels 23).mc.slot < 24 ∧ 24 ≤ (channels 24).mc.slot :=
  ⟨rfl, rfl, by decide, by decide, by decide, by decide, by decide, by decide⟩

/-- The core held for an IDMA boot, the second half of a word waiting. -/
def booting (a : Addr) : State :=
  { ready with
    pins := 5, core := .heldIdma
    idma := { ready.idma with addr := a, half := .secondWrite, holding := 0x2260, pend := some (.write 0x0F) } }

/-- The word at address 0 sets the core running, another does not (61_peripherals.md R634). -/
theorem test_idmaBoot : [0, 1].map (fun a =>
    (nextOf (step (booting a))).map (fun t => (t.core, t.seq.pc, t.fetch))) =
      [some (.running, 0, some 0x22600F), some (.heldIdma, 0x0100, some 0)] := by decide

theorem witness_IdmaWords_boot : (booting 0).env = [] ∧ (booting 0).core = .heldIdma ∧ (booting 0).busHalts = false ∧
    (booting 0).idma.toDm = false ∧ (booting 0).idma.half = .secondWrite ∧ (booting 0).idma.pend = some (.write 0x0F) ∧
    ((booting 0).pmDma (booting 0).idPm (booting 0).idma.addr).isSome = true ∧ Memory.wf (booting 0).mem = true ∧
    (booting 1).idma.addr ≠ 0 := by decide

/-- A BDMA transfer of Byte Memory page 255 in a mode of BTYPE and BDIR. -/
def moving (mode : Word) : State :=
  { ready with bdma := { ready.bdma with ctl := 0xFF00 ||| mode, bead := 0x3FFD, biad := 0x1FFF } }

/-- The last word that stays inside Byte Memory, loaded to either memory, and stored from either. -/
theorem witness_BdmaWord :
    Memory.wf (moving 0).mem = true ∧ (moving 0).bdma.bcr = false ∧ (moving 0).hostMode = false ∧
    (moving 0).bdma.bmpage = 255 ∧ (moving 0).bdma.bead.toNat = 16381 ∧ (moving 0).bdma.bytes = 3 ∧
    255 * 16384 + 16381 + 3 ≤ 4194304 ∧
    ((moving 0).pmDma (moving 0).bmovlay (moving 0).bdma.biad).isSome = true := by decide
theorem witness_BdmaWord_store :
    Memory.wf (moving 7).mem = true ∧ (moving 7).bdma.bcr = false ∧ (moving 7).hostMode = false ∧
    (moving 7).bdma.bmpage = 255 ∧ (moving 7).bdma.bead.toNat = 16381 ∧ (moving 7).bdma.bytes = 1 ∧
    ((moving 7).dmDma (moving 7).bmovlay (moving 7).bdma.biad).isSome = true := by decide
theorem witness_BdmaWord_modes : (moving 0).bdma.btype = 0 ∧ (moving 0).bdma.bdir = false ∧ (moving 1).bdma.btype = 1 ∧
    (moving 6).bdma.btype = 2 ∧ (moving 6).bdma.bdir = true ∧ (moving 7).bdma.btype = 3 ∧ (moving 4).bdma.btype = 0 ∧
    (moving 4).bdma.bdir = true := by decide
/-- The last word of a transfer with BCR 1, one that is not the last, and Host Memory Mode. -/
theorem witness_BdmaWord_bcr :
    let s := { moving 8 with bdma := { (moving 8).bdma with bcrStart := true, bwcount := 1 } }
    let t := { s with bdma := { s.bdma with bwcount := 2 }, pins := 4 }
    Memory.wf s.mem = true ∧ s.bdma.bcr = true ∧ s.bdma.bcrStart = true ∧ s.bdma.bwcount = 1 ∧
      s.bdma.bmpage * 16384 + s.bdma.bead.toNat + s.bdma.bytes ≤ 4194304 ∧ t.bdma.bcr = true ∧ t.bdma.bwcount ≠ 1 ∧
      t.hostMode = true ∧ (nextOf s.bdmaWord).map (fun u => (u.seq.pc, u.core)) = some (0, .running) := by decide
/-- A control register, and the ADSP-2184 beyond its Program Memory. -/
theorem witness_BdmaWord_none :
    let s := { moving 1 with bdma := { (moving 1).bdma with biad := 0x3FE0 } }
    let t := { beyond with bdma := { beyond.bdma with ctl := 0, biad := 0x1000 } }
    Memory.wf s.mem = true ∧ s.bdma.bcr = false ∧ s.hostMode = false ∧ s.bdma.btype ≠ 0 ∧ s.bdma.bdir = false ∧
      s.dmDma s.bmovlay s.bdma.biad = none ∧ Memory.wf t.mem = true ∧ t.bdma.bcr = false ∧ t.hostMode = false ∧
      t.bdma.btype = 0 ∧ t.bdma.bdir = false ∧ t.pmDma t.bmovlay t.bdma.biad = none := by decide

/-- In Host Memory Mode, where a member with mode pins has its IDMA port. -/
def hosted : State := { ready with pins := 4 }

theorem witness_IdmaWords : Memory.wf hosted.mem = true ∧ hosted.idma.toDm = false ∧ hosted.idma.half = .first ∧
    hosted.core ≠ .heldIdma ∧ (hosted.pmDma hosted.idPm hosted.idma.addr).isSome = true ∧ hosted.core = .running ∧
    hosted.hasIdmaPort = true ∧ hosted.idma.pend = none ∧ (0x4123 : Word).getLsbD 15 = false ∧
    beyond.cfg.member.hasIdmaOvl = false ∧ (0x8000 : Word).getLsbD 15 = true := by decide
theorem witness_IdmaWords_overlay : hosted.cfg.member.hasIdmaOvl = true ∧ (0x8005 : Word).getLsbD 15 = true ∧
    (nextOf (hosted.idmaStep (.latch 0x8005))).map (fun t => (t.idma.ovl, t.idma.addr)) = some (5, hosted.idma.addr) := by decide
theorem witness_IdmaWords_dm :
    let s := hosted.setIdma { hosted.idma with toDm := true, addr := 0x3FDF }
    Memory.wf s.mem = true ∧ s.idma.toDm = true ∧ (s.dmDma s.idDm s.idma.addr).isSome = true ∧ s.core = .running ∧
      s.hasIdmaPort = true ∧ s.idma.pend = none := by decide
theorem witness_IdmaWords_halves :
    let s := hosted.setIdma { hosted.idma with half := .secondRead }
    let t := hosted.setIdma { hosted.idma with half := .secondWrite }
    s.idma.toDm = false ∧ s.idma.half = .secondRead ∧ t.idma.toDm = false ∧ t.idma.half = .secondWrite ∧
      s.core = .running ∧ t.core = .running ∧ s.hasIdmaPort = true ∧ s.idma.pend = none := by decide

end Sys2Proof.Machine.Tests
end

section
/-!
PROOFS. The data invariant: what each operation of the machine does to it, and that every step keeps it (10_state.md R60 to
R66).
-/

namespace Sys2Proof.Machine

/-! ### The invariant taken apart -/

/-- The five parts of the data invariant, by name. -/
structure StateOk (s : State) : Prop where
  mem : Memory.wf s.mem = true
  pcStk : s.seq.pcStk.ok pcDepth = true
  cntStk : s.seq.cntStk.ok cntDepth = true
  loopStk : s.seq.loopStk.ok loopDepth = true
  stsStk : s.seq.stsStk.ok s.cfg.stsDepth = true

theorem ok_iff (s : State) : s.ok = true ↔ StateOk s := by
  simp only [State.ok, Bool.and_eq_true]
  exact ⟨fun ⟨⟨⟨⟨m, p⟩, c⟩, l⟩, t⟩ => ⟨m, p, c, l, t⟩, fun h => ⟨⟨⟨⟨h.mem, h.pcStk⟩, h.cntStk⟩, h.loopStk⟩, h.stsStk⟩⟩

/-- The invariant reads memory, the sequencer and the parameters alone. -/
theorem ok_congr {s t : State} (hm : t.mem = s.mem) (hs : t.seq = s.seq) (hc : t.cfg = s.cfg) : t.ok = s.ok := by
  simp only [State.ok, hm, hs, hc]

theorem wf_of_ok {s : State} (h : s.ok = true) : Memory.wf s.mem = true := ((ok_iff s).mp h).mem

/-- Another memory in canonical form. -/
theorem ok_withMem {s : State} (h : s.ok = true) {m : Memory} (hm : Memory.wf m = true) :
    State.ok { s with mem := m } = true :=
  (ok_iff _).mpr { (ok_iff s).mp h with mem := hm }

theorem ite_ok {s t : State} (b : Bool) (hs : s.ok = true) (ht : t.ok = true) : (if b then s else t).ok = true := by
  cases b
  · exact ht
  · exact hs

/-! ### Updates that do not touch it -/

section
variable (s : State)

@[simp] theorem setPc_ok (a : Addr) : (s.setPc a).ok = s.ok := rfl
@[simp] theorem setCntr_ok (v : Addr) (b : Bool) : (s.setCntr v b).ok = s.ok := rfl
@[simp] theorem setLatch_ok (k : Nat) : (s.setLatch k).ok = s.ok := rfl
@[simp] theorem setIdma_ok (d : Idma) : (s.setIdma d).ok = s.ok := rfl
@[simp] theorem setPx_ok (v : BitVec 8) : (s.setPx v).ok = s.ok := rfl
@[simp] theorem post_ok (g : Bool) (i m : BitVec 2) : (s.post g i m).ok = s.ok := rfl
@[simp] theorem count_ok (n : Nat) : (s.count n).ok = s.ok := rfl
@[simp] theorem dueNow_ok : s.dueNow.ok = s.ok := rfl
@[simp] theorem anySstat_ok : s.anySstat.ok = s.ok := rfl
@[simp] theorem setBank_ok (b : Bank) : (s.setBank b).ok = s.ok := ok_congr (by simp) (by simp) (by simp)
@[simp] theorem setSport_ok (n : Fin 2) (p : Sport) : (s.setSport n p).ok = s.ok := ok_congr (by simp) (by simp) (by simp)
@[simp] theorem loadDreg_ok (d : Dreg) (v : Word) : (s.loadDreg d v).ok = s.ok := setBank_ok s _

end

/-! ### Memory -/

section
variable {s : State} (h : s.ok = true)
include h

theorem writePm_ok (a : Addr) (w : PmWord) : (s.writePm a w).ok = true := by
  rw [writePm_eq]
  exact ok_withMem h (wf_writePm (wf_of_ok h) a w)

theorem writeDm_ok (a : Addr) (v : Word) : (s.writeDm a v).ok = true := by
  have hm := wf_writeDm (wf_of_ok h) a v
  exact (ok_iff _).mpr ⟨hm, by simpa only [writeDm_seq] using ((ok_iff s).mp h).pcStk,
    by simpa only [writeDm_seq] using ((ok_iff s).mp h).cntStk, by simpa only [writeDm_seq] using ((ok_iff s).mp h).loopStk,
    by simpa only [writeDm_seq, writeDm_cfg] using ((ok_iff s).mp h).stsStk⟩

theorem pmIntWrite_ok (l : Option Loc) (w : PmWord) : (s.pmIntWrite l w).ok = true := by
  cases l with
  | none => exact h
  | some l => exact ok_withMem h (wf_memSet24 (wf_of_ok h) _ _)

theorem dmIntWrite_ok (l : Option Loc) (w : Word) : (s.dmIntWrite l w).ok = true := by
  cases l with
  | none => exact h
  | some l => exact ok_withMem h (wf_memSet16 (wf_of_ok h) _ _)

theorem writeBm_ok (a : BitVec 22) (v : Byte) : (s.writeBm a v).ok = true := ok_withMem h (wf_memSet (wf_of_ok h) _ _)

/-! ### The stacks -/

theorem setPcStk_ok {k : Stack Addr} (hk : k.ok pcDepth = true) : (s.setPcStk k).ok = true :=
  (ok_iff _).mpr { (ok_iff s).mp h with pcStk := hk }

theorem setLoopStk_ok {k : Stack LoopEntry} (hk : k.ok loopDepth = true) : (s.setLoopStk k).ok = true :=
  (ok_iff _).mpr { (ok_iff s).mp h with loopStk := hk }

theorem setCntStk_ok {k : Stack Addr} (hk : k.ok cntDepth = true) : (s.setCntStk k).ok = true :=
  (ok_iff _).mpr { (ok_iff s).mp h with cntStk := hk }

theorem setStsStk_ok {k : Stack StsEntry} (hk : k.ok s.cfg.stsDepth = true) : (s.setStsStk k).ok = true :=
  (ok_iff _).mpr { (ok_iff s).mp h with stsStk := hk }

theorem pushPc_ok (v : Addr) : (s.pushPc v).ok = true := setPcStk_ok h (Stack.push_ok ((ok_iff s).mp h).pcStk v)
theorem popPc_ok : s.popPc.ok = true := setPcStk_ok h (Stack.pop_ok ((ok_iff s).mp h).pcStk)
theorem anyPcStk_ok : s.anyPcStk.ok = true := setPcStk_ok h (Stack.any_ok _ _ _ _)
theorem pushLoop_ok (e : LoopEntry) : (s.pushLoop e).ok = true := setLoopStk_ok h (Stack.push_ok ((ok_iff s).mp h).loopStk e)
theorem popLoop_ok : s.popLoop.ok = true := setLoopStk_ok h (Stack.pop_ok ((ok_iff s).mp h).loopStk)
theorem anyLoopStk_ok : s.anyLoopStk.ok = true := setLoopStk_ok h (Stack.any_ok _ _ _ _)
theorem popCntr_ok : s.popCntr.ok = true := setCntStk_ok h (Stack.pop_ok ((ok_iff s).mp h).cntStk)
theorem anyCntStk_ok : s.anyCntStk.ok = true := setCntStk_ok h (Stack.any_ok _ _ _ _)
theorem pushSts_ok : s.pushSts.ok = true := setStsStk_ok h (Stack.push_ok ((ok_iff s).mp h).stsStk _)
theorem popSts_ok : s.popSts.ok = true := setStsStk_ok h (Stack.pop_ok ((ok_iff s).mp h).stsStk)

theorem writeCntr_ok (v : Addr) : (s.writeCntr v).ok = true := by
  unfold State.writeCntr
  rw [setCntr_ok]
  split
  · exact setCntStk_ok h (Stack.push_ok ((ok_iff s).mp h).cntStk _)
  · exact h

theorem countCe_ok : s.countCe.ok = true := by
  unfold State.countCe
  split
  · split
    · exact h
    · exact setCntStk_ok h (Stack.pop_ok ((ok_iff s).mp h).cntStk)
  · exact h

theorem doFull_ok : s.doFull.ok = true := h

/-! ### Sequencing -/

theorem loopTo_ok (s0 : State) (done : Bool) : (s0.loopTo s done).ok = true := by
  unfold State.loopTo
  split
  · exact popPc_ok (popLoop_ok h)
  · exact setPcStk_ok h ((ok_iff s).mp h).pcStk

theorem loopEnd_ok (s0 : State) : (s0.loopEnd s).ok = true := by
  unfold State.loopEnd
  split
  · exact loopTo_ok (countCe_ok h) s0 _
  · exact loopTo_ok h s0 _

theorem openExit_ok : s.openExit.ok = true := by
  unfold State.openExit
  dsimp only
  rw [setCntr_ok]
  split
  · exact setCntStk_ok h (Stack.pop_ok ((ok_iff s).mp h).cntStk)
  · exact h

theorem loopClash_ok (s0 : State) : (s0.loopClash s).ok = true := by
  have h1 := ite_ok s.lat.use.pcStack (anyPcStk_ok h) h
  have h2 := ite_ok s.lat.use.loop (anyLoopStk_ok h1) h1
  have h3 := ite_ok s.lat.use.count (anyCntStk_ok h2) h2
  have h4 (v : Addr) (b : Bool) := (setCntr_ok _ v b).trans h3
  have h5 (v : Addr) (b e : Bool) := ite_ok e (openExit_ok (h4 v b)) (h4 v b)
  have h6 (v : Addr) (b e : Bool) := loopTo_ok (h5 v b e) s0 ((Config.free 1 s0.freeCtr .loopDecision 0).getLsbD 0)
  exact ite_ok _ ((anySstat_ok _).trans (h6 _ _ _)) (h6 _ _ _)

/-- The sequencing step keeps the invariant of the state it ends. -/
theorem advance_ok (s0 : State) : (s0.advance s).ok = true := by
  unfold State.advance
  split
  · split
    · exact loopClash_ok h s0
    · exact loopEnd_ok h s0
  · exact h

theorem takeInterrupt_ok (x : Source) : (s.takeInterrupt x).ok = true := by
  have ht := ite_ok s.lat.popDue (popPc_ok h) h
  exact pushSts_ok (pushPc_ok ht s.seq.pc)

theorem returnInterrupt_ok : s.returnInterrupt.ok = true := popSts_ok (popPc_ok h)

theorem contextReset_ok : s.contextReset.ok = true := by
  have hm : Memory.wf s.contextReset.mem = true := wf_of_ok (s := s) h
  exact (ok_iff _).mpr ⟨hm, rfl, rfl, rfl, Stack.empty_ok _⟩

theorem load_ok (r : Reg) (v : Word) : (s.load r v).ok = true := by
  cases r with
  | cntr => exact writeCntr_ok h _
  | d | sb => exact (setBank_ok s _).trans h
  | rx0 | tx0 | rx1 | tx1 => exact (setSport_ok s _ _).trans h
  | i | m | l | pmovlay | dmovlay | astat | mstat | sstat | imask | icntl | px | ifc | owrcntr => exact h

end

end Sys2Proof.Machine
end

section
/-!
PROOFS. Every instruction keeps the data invariant, by the effects the instructions share.
-/

namespace Sys2Proof.Machine

/-- An answer that is a next state meets the data invariant. -/
def AnswersOk (r : Result) : Prop := ∀ t, r = .next t → t.ok = true

theorem answersOk_next {t : State} (h : t.ok = true) : AnswersOk (.next t) := by
  rintro _ ⟨⟩
  exact h

theorem answersOk_refused (e : Refusal) : AnswersOk (.refused e) := by
  rintro _ ⟨⟩

/-! ### Effects that write registers and flags alone -/

section
variable (s : State)

@[simp] theorem commit_ok (b : Bank) (a : BitVec 8) : (s.commit b a).ok = s.ok := setBank_ok s b

theorem aluReg_ok (z : Dest) (fn : AluFn) (y : Yop) (x : Xop) : (s.aluReg z fn y x).ok = s.ok := commit_ok s _ _
theorem aluConst_ok (z : Dest) (fn : AluFn) (k : Const) (x : Xop) : (s.aluConst z fn k x).ok = s.ok := commit_ok s _ _
theorem aluPassOpen_ok (z : Dest) (r : Word) : (s.aluPassOpen z r).ok = s.ok := commit_ok s _ _
theorem macReg_ok (z : Dest) (fn : MacFn) (y : Yop) (x : Xop) : (s.macReg z fn y x).ok = s.ok := commit_ok s _ _
theorem macSquare_ok (z : Dest) (fn : MacFn) (x : Xop) : (s.macSquare z fn x).ok = s.ok := commit_ok s _ _
theorem lshift_ok (hi orSr : Bool) (v : Word) (c : BitVec 8) : (s.lshift hi orSr v c).ok = s.ok := setBank_ok s _
theorem ashift_ok (hi orSr : Bool) (v : Word) (c : BitVec 8) : (s.ashift hi orSr v c).ok = s.ok := setBank_ok s _

theorem compute_ok (z : Dest) (cp : Comp) : (s.compute z cp).ok = s.ok := by
  cases cp with
  | alu fn y x => exact aluReg_ok s z fn y x
  | mac fn y x => exact macReg_ok s z fn y x

theorem shiftReg_ok (fn : ShiftFn) (x : ShXop) : (s.shiftReg fn x).ok = s.ok := by
  cases fn with
  | lshiftHi | lshiftHiOr | lshiftLo | lshiftLoOr => exact lshift_ok s _ _ _ _
  | ashiftHi | ashiftHiOr | ashiftLo | ashiftLoOr => exact ashift_ok s _ _ _ _
  | normHi | normHiOr | normLo | normLoOr => exact setBank_ok s _
  | expHi => exact commit_ok s _ _
  | expHix =>
    simp only [State.shiftReg, State.shiftVal, State.expHix, State.expHi, setSeSs_commit]
    split <;> exact commit_ok s _ _
  | expLo =>
    simp only [State.shiftReg, State.shiftVal, State.expLo]
    split
    · exact setBank_ok s _
    · rfl
  | expAdj =>
    simp only [State.shiftReg, State.shiftVal, State.expAdj]
    split
    · exact setBank_ok s _
    · rfl

@[simp] theorem loadBeside_ok (clash : Bool) (d : Dreg) (v : Word) : (s.loadBeside clash d v).ok = s.ok := by
  cases clash <;> exact setBank_ok s _

theorem divqEffect_ok (x : Word) : (if s.inLoop then s.divqOpen else s.divqStep x).ok = s.ok := by
  split <;> exact commit_ok s _ _

end

/-! ### The shapes of an instruction -/

section
variable {s t : State}

theorem done_ok (ht : t.ok = true) : AnswersOk (s.done t) := answersOk_next (advance_ok ht s)

theorem doneIf_ok (h : s.ok = true) (ht : t.ok = s.ok) (c : Cond) : AnswersOk (s.doneIf c t) := by
  unfold State.doneIf
  split
  · exact done_ok (ht.trans h)
  · exact done_ok h

theorem dmReadTo_ok (ht : t.ok = true) (clash : Bool) (g : Bool) (d : Dreg) (i m : BitVec 2) :
    AnswersOk (s.done (s.dmReadTo t clash g d i m)) := done_ok ((loadBeside_ok _ _ _ _).trans ht)

theorem pmReadTo_ok (ht : t.ok = true) (clash : Bool) (d : Dreg) (i m : BitVec 2) :
    AnswersOk (s.done (s.pmReadTo t clash d i m)) := done_ok ((loadBeside_ok _ _ _ _).trans ht)

theorem dmWriteOf_ok (ht : t.ok = true) (g : Bool) (v : Word) (i m : BitVec 2) :
    AnswersOk (s.done (s.dmWriteOf t g v i m)) :=
  have hp : (t.post g i m).ok = true := ht
  done_ok (writeDm_ok hp _ _)

theorem pmWriteOf_ok (ht : t.ok = true) (d : Dreg) (i m : BitVec 2) : AnswersOk (s.done (s.pmWriteOf t d i m)) :=
  have hp : (t.post true i m).ok = true := ht
  done_ok (writePm_ok hp _ _)

theorem dualTo_ok (ht : t.ok = true) (pd : PmDst) (dd : DmDst) (pi pm di dm : BitVec 2) :
    AnswersOk (s.done (s.dualTo t pd dd pi pm di dm)) := by
  refine done_ok ?_
  unfold State.dualTo
  dsimp only
  split <;> simpa using ht

variable (h : s.ok = true)
include h

theorem jumpTested_ok (c : Cond) : (s.jumpTested c).ok = true := by
  unfold State.jumpTested
  split
  · exact countCe_ok h
  · exact h

theorem callTested_ok (c : Cond) : (s.callTested c).ok = true := by
  unfold State.callTested
  split
  · exact jumpTested_ok h c
  · exact h

theorem jumpTo_ok (c : Cond) (a : Addr) : AnswersOk (s.jumpTo c a) := by
  unfold State.jumpTo
  split
  · exact answersOk_next (jumpTested_ok h c)
  · exact done_ok (jumpTested_ok h c)

theorem callTo_ok (c : Cond) (a : Addr) : AnswersOk (s.callTo c a) := by
  unfold State.callTo
  split
  · exact answersOk_next (pushPc_ok (callTested_ok h c) _)
  · exact done_ok (callTested_ok h c)

theorem idleWith_ok (n : Nat) : AnswersOk (s.idleWith n) := by
  unfold State.idleWith
  split
  · split
    · exact answersOk_refused _
    · exact answersOk_next h
  · exact answersOk_next h

theorem jumpFlagIn_ok (a : Addr) (fic : Bool) : AnswersOk (execJumpFlagIn a fic s) := by
  unfold execJumpFlagIn
  split
  · exact answersOk_next h
  · exact done_ok h

theorem callFlagIn_ok (a : Addr) (fic : Bool) : AnswersOk (execCallFlagIn a fic s) := by
  unfold execCallFlagIn
  split
  · exact answersOk_next (pushPc_ok h _)
  · exact done_ok h

theorem returnSub_ok : s.returnSub.ok = true :=
  have hp : s.popPc.ok = true := popPc_ok h
  hp

theorem rts_ok (c : Cond) : AnswersOk (execRts c s) := by
  unfold execRts
  split
  · exact answersOk_next (returnSub_ok h)
  · exact done_ok h

theorem rti_ok (c : Cond) : AnswersOk (execRti c s) := by
  unfold execRti
  split
  · exact answersOk_next (returnInterrupt_ok h)
  · exact done_ok h

theorem doUntil_ok (a : Addr) (t : Term) : AnswersOk (execDoUntil a t s) := by
  unfold execDoUntil
  split
  · exact done_ok (doFull_ok h)
  · exact done_ok (pushPc_ok (pushLoop_ok h _) _)

theorem discardPc_ok : s.discardPc.ok = true :=
  have hp : s.popPc.ok = true := popPc_ok h
  hp

theorem stsOp_ok (op : StsOp) : (s.stsOp op).ok = true := by
  cases op with
  | keep0 | keep1 => exact h
  | push => exact pushSts_ok h
  | pop => exact popSts_ok h

theorem stackControl_ok (iq pp lp cp : Bool) (op : StsOp) : AnswersOk (execStackControl iq pp lp cp op s) := by
  have h1 := stsOp_ok h op
  have h2 := ite_ok cp (popCntr_ok h1) h1
  have h3 := ite_ok pp (discardPc_ok h2) h2
  exact done_ok (ite_ok lp (popLoop_ok h3) h3)

/-- Every instruction keeps the data invariant. -/
theorem exec_ok (i : Instr) : AnswersOk (exec i s) := by
  cases i with
  | aluPassZero | aluPassY | aluPassOne | aluIncY | aluXAddC | aluAddC | aluPassX | aluAdd | aluNotZero | aluNotY
  | aluNegY | aluXSubBorrow | aluSubBorrow | aluSub | aluPassNegOne | aluDecY | aluNegX | aluRsub | aluNegXBorrow
  | aluRsubBorrow | aluNotX | aluAnd | aluOr | aluXor | aluAbs => exact doneIf_ok h (aluReg_ok s _ _ _ _) _
  | aluPassConst | aluPassConstInc | aluPassConstDec => exact doneIf_ok h (aluPassOpen_ok s _ _) _
  | aluAddConstC | aluAddConst | aluSubConstBorrow | aluSubConst | aluRsubConst | aluRsubConstBorrow | aluAndConst
  | aluOrConst | aluXorConst | aluNotConst | aluNegConst => exact doneIf_ok h (aluConst_ok s _ _ _ _) _
  | macSqRnd | macAddSqRnd | macSubSqRnd | macSqSS | macSqUU | macAddSqSS | macAddSqUU | macSubSqSS | macSubSqUU =>
    exact doneIf_ok h (macSquare_ok s _ _ _) _
  | macMulRnd | macRnd | macAddRnd | macSubRnd | macZero | macMulSS | macMulSU | macMulUS | macMulUU | macCopy | macAddSS
  | macAddSU | macAddUS | macAddUU | macSubSS | macSubSU | macSubUS | macSubUU => exact doneIf_ok h (macReg_ok s _ _ _ _) _
  | condNop | flagOut =>
    refine doneIf_ok h ?_ _
    rfl
  | lshiftHi | lshiftHiOr | lshiftLo | lshiftLoOr | ashiftHi | ashiftHiOr | ashiftLo | ashiftLoOr | normHi | normHiOr
  | normLo | normLoOr | expHi | expHix | expLo | expAdj => exact doneIf_ok h (shiftReg_ok s _ _) _
  | lshiftImmHi | lshiftImmHiOr | lshiftImmLo | lshiftImmLoOr => exact done_ok ((lshift_ok s _ _ _ _).trans h)
  | ashiftImmHi | ashiftImmHiOr | ashiftImmLo | ashiftImmLoOr => exact done_ok ((ashift_ok s _ _ _ _).trans h)
  | satMr => exact doneIf_ok h (setBank_ok s _) _
  | divs => exact done_ok ((commit_ok s _ _).trans h)
  | divq => exact done_ok ((divqEffect_ok s _).trans h)
  | moveDreg | loadDregImm | ioRead => exact done_ok ((setBank_ok s _).trans h)
  | aluMove => exact done_ok ((loadBeside_ok _ _ _ _).trans ((aluReg_ok s _ _ _ _).trans h))
  | macMove => exact done_ok ((loadBeside_ok _ _ _ _).trans ((macReg_ok s _ _ _ _).trans h))
  | shiftMove => exact done_ok ((loadBeside_ok _ _ _ _).trans ((shiftReg_ok s _ _).trans h))
  | loadDm => exact dmReadTo_ok h _ _ _ _ _
  | compLoadDm => exact dmReadTo_ok ((compute_ok s _ _).trans h) _ _ _ _ _
  | shiftLoadDm => exact dmReadTo_ok ((shiftReg_ok s _ _).trans h) _ _ _ _ _
  | loadPm => exact pmReadTo_ok h _ _ _ _
  | compLoadPm => exact pmReadTo_ok ((compute_ok s _ _).trans h) _ _ _ _
  | shiftLoadPm => exact pmReadTo_ok ((shiftReg_ok s _ _).trans h) _ _ _ _
  | dualRead => exact dualTo_ok h _ _ _ _ _ _
  | compDualRead => exact dualTo_ok ((compute_ok s _ _).trans h) _ _ _ _ _ _
  | storeDm | storeDmImm => exact dmWriteOf_ok h _ _ _ _
  | compStoreDm => exact dmWriteOf_ok ((compute_ok s _ _).trans h) _ _ _ _
  | shiftStoreDm => exact dmWriteOf_ok ((shiftReg_ok s _ _).trans h) _ _ _ _
  | storePm => exact pmWriteOf_ok h _ _ _
  | compStorePm => exact pmWriteOf_ok ((compute_ok s _ _).trans h) _ _ _
  | shiftStorePm => exact pmWriteOf_ok ((shiftReg_ok s _ _).trans h) _ _ _
  | storeReg => exact done_ok (writeDm_ok h _ _)
  | loadReg | loadRegImm | loadPmovlay | loadDmovlay | moveReg | popTop => exact done_ok (load_ok h _ _)
  | pushTop => exact done_ok (pushPc_ok h _)
  | aluNone | modify | modeControl | enaInts | disInts | ioWrite | nop =>
    refine done_ok ?_
    exact h
  | jump | jumpInd => exact jumpTo_ok h _ _
  | call | callInd => exact callTo_ok h _ _
  | doUntil => exact doUntil_ok h _ _
  | rts => exact rts_ok h _
  | rti => exact rti_ok h _
  | jumpFlagIn => exact jumpFlagIn_ok h _ _
  | callFlagIn => exact callFlagIn_ok h _ _
  | idle | idleSlow => exact idleWith_ok h _
  | stackControl iq => exact stackControl_ok h iq _ _ _ _
  | type22 => exact answersOk_refused _

end

end Sys2Proof.Machine
end

section
/-!
PROOFS. Every event of the outside world and every step keeps the data invariant (20_memory.md R139; 61_peripherals.md R580).
-/

namespace Sys2Proof.Machine

/-! ### The end of a cycle -/

section
variable (s t : State)

@[simp] theorem timerStep_ok : (s.timerStep t).ok = t.ok := by
  obtain ⟨_, _, h, -⟩ := timerStep_only s t
  rw [h]
  rfl

@[simp] theorem bdmaTick_ok (n : Nat) : (s.bdmaTick n).ok = s.ok := by
  obtain ⟨_, _, h⟩ := bdmaTick_only s n
  rw [h]
  rfl

@[simp] theorem devices_ok : (s.devices t).ok = t.ok := timerStep_ok s t.timerSync

@[simp] theorem deviceCycle_ok (n : Nat) : (s.deviceCycle t n).ok = t.ok :=
  (bdmaTick_ok (s.devices t) n).trans (devices_ok s t)

@[simp] theorem pdStep_ok : s.pdStep.ok = s.ok := by
  rw [pdStep_eq]
  rfl

@[simp] theorem endCycle_ok (n : Nat) : (s.endCycle t n).ok = t.ok :=
  (deviceCycle_ok s (s.icntlStep t.ifcStep.pdStep) n).trans (pdStep_ok t.ifcStep)

@[simp] theorem prefetchNext_ok : (s.prefetchNext t).ok = t.ok := rfl

/-- The instruction in progress is no longer stopped for the bus. -/
theorem released_ok : State.ok { s with stalled := false, held := .none } = s.ok := rfl

@[simp] theorem waitCycle_ok (n : Nat) : (s.waitCycle n).ok = s.ok := deviceCycle_ok s s n
@[simp] theorem stall_ok : s.stall.ok = s.ok := waitCycle_ok s 1

@[simp] theorem idleCycle_ok : s.idleCycle.ok = s.ok := (waitCycle_ok _ 1).trans (pdStep_ok s)

@[simp] theorem grantAmid_ok (i : Instr) (w : PmWord) : (s.grantAmid t i w).ok = s.ok :=
  have h := waitCycle_ok s (s.firstCost t i + s.byteLeft (s.firstCost t i))
  h

@[simp] theorem enterInterrupt_ok (x : Source) : (s.enterInterrupt x).ok = (s.takeInterrupt x).ok := by
  rw [enterInterrupt_eq]
  rfl

end

section
variable {s t : State}

/-- The PC stack, the PC and SSTAT at any value. -/
theorem openPcStk_ok (ht : t.ok = true) : t.anyPcStk.anyPc.anySstat.ok = true :=
  have h : t.anyPcStk.anyPc.ok = true := (setPc_ok _ _).trans (anyPcStk_ok ht)
  (anySstat_ok _).trans h

theorem delayedPop_ok (ht : t.ok = true) : (s.delayedPop t).ok = true := by
  have hany := openPcStk_ok ht
  have hloop : t.anyPcStk.anyPc.anySstat.anyLoopStk.anySstat.ok = true := (anySstat_ok _).trans (anyLoopStk_ok hany)
  unfold State.delayedPop
  split
  · split
    · exact ite_ok s.atLoopEnd hloop hany
    · exact popPc_ok ht
  · exact ht

theorem pushThenReturn_ok (ht : t.ok = true) : (s.pushThenReturn t).ok = true := ite_ok _ (openPcStk_ok ht) ht

theorem finish_ok (ht : t.ok = true) (i : Instr) : (s.finish t i).ok = true := by
  have hr : (s.pushThenReturn (s.delayedPop t)).ok = true := pushThenReturn_ok (delayedPop_ok ht)
  exact (released_ok _).trans ((prefetchNext_ok s _).trans ((endCycle_ok s _ _).trans hr))

end

/-! ### An instruction -/

section
variable {s : State} (h : s.ok = true)
include h

theorem seenData_ok : s.seenData.ok = true := by
  refine ok_withMem h ?_
  unfold withHeld
  split
  · exact wf_memSet24 (wf_of_ok h) _ _
  · exact wf_of_ok h

theorem unseen_ok {t : State} (ht : t.ok = true) : (s.unseen t).ok = true := ite_ok _ (ok_withMem ht (wf_of_ok h)) ht

theorem execInstr_ok (w : PmWord) (i : Instr) : AnswersOk (s.execInstr w i) := by
  have hi := exec_ok (seenData_ok h) i
  unfold State.execInstr
  split
  next u hu =>
    have hf := finish_ok (s := s) (unseen_ok h (hi u hu)) i
    dsimp only
    split
    · exact answersOk_next ((stall_ok s).trans h)
    · split
      · exact answersOk_next ((grantAmid_ok s _ i w).trans h)
      · exact answersOk_next hf
  next f _ => cases f
  next => exact answersOk_refused _

theorem runInstr_ok : AnswersOk s.runInstr := by
  unfold State.runInstr
  split
  · exact answersOk_next ((stall_ok s).trans h)
  · split
    · exact answersOk_refused _
    · split
      · exact execInstr_ok h _ _
      · exact answersOk_refused _

theorem coreStep_ok : AnswersOk s.coreStep := by
  unfold State.coreStep
  split
  · exact answersOk_next ((enterInterrupt_ok s _).trans (takeInterrupt_ok h _))
  · split
    · exact answersOk_next ((idleCycle_ok s).trans h)
    · exact runInstr_ok h

end

/-! ### The devices -/

theorem costing_ok {r : Result} (h : AnswersOk r) (n : Nat) : AnswersOk (costing n r) := by
  unfold costing
  split
  next t => exact answersOk_next (h t rfl)
  next f => cases f
  next => exact answersOk_refused _

section
variable {s : State} (h : s.ok = true)
include h

theorem bdmaMove_ok : s.bdmaMove.ok = true := by
  unfold State.bdmaMove
  dsimp only
  split
  · split
    · exact writeBm_ok (writeBm_ok (writeBm_ok h _ _) _ _) _ _
    · exact writeBm_ok (writeBm_ok h _ _) _ _
    · exact writeBm_ok h _ _
    · exact writeBm_ok h _ _
  · split
    · exact pmIntWrite_ok h _ _
    · exact dmIntWrite_ok h _ _
    · exact dmIntWrite_ok h _ _
    · exact dmIntWrite_ok h _ _

theorem bdmaAdvance_ok : s.bdmaAdvance.ok = true := h

theorem bdmaWord_ok : AnswersOk s.bdmaWord := by
  have ht := bdmaAdvance_ok (bdmaMove_ok h)
  have hu := (setLatch_ok s.bdmaMove.bdmaAdvance 3).trans ht
  unfold State.bdmaWord
  split
  · exact answersOk_refused _
  · dsimp only
    split
    · exact answersOk_next ht
    · exact answersOk_next (ite_ok _ (contextReset_ok hu) hu)

theorem heldWordCycle_ok : AnswersOk s.heldWordCycle := by
  have hw := bdmaWord_ok h
  unfold State.heldWordCycle
  split
  next t ht => exact answersOk_next ((devices_ok s t).trans (hw t ht))
  next f _ => cases f
  next => exact answersOk_refused _

theorem idmaRelease_ok (a : Addr) : (s.idmaRelease a).ok = true := by
  unfold State.idmaRelease
  split
  · exact h
  · exact h

theorem idmaSwitched_ok : s.idmaSwitched.ok = true := by
  have ht (w : PmWord) (d : Idma) : ((s.pmIntWrite (s.pmDma s.idPm s.idma.addr) w).setIdma d).ok = true :=
    pmIntWrite_ok h _ w
  exact ite_ok _ (idmaRelease_ok (ht _ _) _) (ht _ _)

theorem idmaReadStep_ok : AnswersOk s.idmaReadStep := by
  unfold State.idmaReadStep
  dsimp only
  split
  · exact answersOk_next h
  · split
    · exact answersOk_next h
    · exact answersOk_next h
    · exact answersOk_next (idmaSwitched_ok h)

theorem idmaWriteStep_ok (v : Word) : AnswersOk (s.idmaWriteStep v) := by
  unfold State.idmaWriteStep
  dsimp only
  split
  · exact answersOk_next ((setIdma_ok _ _).trans (dmIntWrite_ok h _ _))
  · split
    · exact answersOk_next h
    · exact answersOk_next (idmaRelease_ok ((setIdma_ok _ _).trans (pmIntWrite_ok h _ _)) _)
    · exact answersOk_next (idmaSwitched_ok h)

theorem idmaStep_ok (op : IdmaOp) : AnswersOk (s.idmaStep op) := by
  cases op with
  | read => exact idmaReadStep_ok h
  | write v => exact idmaWriteStep_ok h v
  | latch v => exact answersOk_next h

theorem idmaEvent_ok (op : IdmaOp) : AnswersOk (s.idmaEvent op) := by
  unfold State.idmaEvent
  repeat' split
  · exact answersOk_next h
  · exact answersOk_refused _
  · exact answersOk_refused _
  · exact answersOk_refused _
  · exact answersOk_next h
  · exact idmaStep_ok h op

theorem idmaTurn_ok (op : IdmaOp) : AnswersOk (s.idmaTurn op) :=
  have hp : (s.setIdma { s.idma with pend := none }).ok = true := h
  costing_ok (idmaStep_ok hp op) _

theorem autoTx_ok (n : Fin 2) : (s.autoTx n).ok = true := by
  have ht (p : Sport) : ((s.setSport n p).dagStep (s.sport n).txI (s.sport n).txM).ok = true :=
    (setSport_ok s n p).trans h
  exact ite_ok _ ((setLatch_ok _ _).trans (ht _)) (ht _)

theorem autoRx_ok (n : Fin 2) : (s.autoRx n).ok = true := by
  have hp : ((s.setSport n { s.sport n with rxReq := false }).dagStep (s.sport n).rxI (s.sport n).rxM).ok = true :=
    (setSport_ok s n _).trans h
  have ht := writeDm_ok hp (s.dagAddr (s.sport n).rxI) (s.readRx n)
  exact (dueNow_ok _).trans (ite_ok _ ((setLatch_ok _ _).trans ht) ht)

theorem autobuffer_ok {t : State} (ht : s.autobuffer = some t) : t.ok = true := by
  unfold State.autobuffer at ht
  repeat' split at ht
  · cases ht; exact autoTx_ok h 0
  · cases ht; exact autoRx_ok h 0
  · cases ht; exact autoTx_ok h 1
  · cases ht; exact autoRx_ok h 1
  · cases ht

/-! ### The core's turn -/

theorem boundary_ok : AnswersOk s.boundary := by
  unfold State.boundary
  split
  · exact idmaTurn_ok h _
  · split
    · exact costing_ok (bdmaWord_ok h) _
    · split
      next t ht =>
        split
        · exact answersOk_next ((waitCycle_ok s 1).trans h)
        · exact answersOk_next ((count_ok t _).trans (autobuffer_ok h ht))
      next => exact coreStep_ok h

theorem active_ok : AnswersOk s.active := by
  unfold State.active
  split
  · exact answersOk_next ((waitCycle_ok s 1).trans h)
  · split
    · exact runInstr_ok h
    · exact boundary_ok h

theorem heldBdma_ok : AnswersOk s.heldBdma := by
  unfold State.heldBdma
  split
  · exact heldWordCycle_ok h
  · exact answersOk_next ((waitCycle_ok s 1).trans h)

theorem heldIdma_ok : AnswersOk s.heldIdma := by
  unfold State.heldIdma
  split
  · exact idmaTurn_ok h _
  · exact answersOk_next ((waitCycle_ok s 1).trans h)

theorem turn_ok : AnswersOk s.turn := by
  have hw := answersOk_next ((waitCycle_ok s 1).trans h)
  unfold State.turn
  split
  case h_1 => exact active_ok h
  case h_2 => exact active_ok h
  case h_3 =>
    split
    · exact hw
    · exact heldBdma_ok h
  case h_4 =>
    split
    · exact hw
    · exact heldIdma_ok h
  case h_5 => exact answersOk_next h
  case h_6 => exact answersOk_next h

theorem turnBusRequest_ok (k : Nat) : AnswersOk (s.turnBusRequest k) := by
  have hs : State.ok { s with amid := k + 1 } = true := h
  have ht := turn_ok hs
  unfold State.turnBusRequest
  split
  next t hr =>
    have hb : (State.busRequestEvent { t with amid := 0 } true).ok = true := ht t hr
    refine answersOk_next ?_
    split
    · exact ht t hr
    · exact hb
  next f _ => cases f
  next => exact answersOk_refused _

theorem turnIdmaLatch_ok (v : Word) : AnswersOk (s.turnIdmaLatch v) := by
  have hs : (s.setIdma { s.idma with coreWrote := false }).ok = true := h
  have ht := turn_ok hs
  unfold State.turnIdmaLatch
  split
  next t hr =>
    split
    · exact answersOk_next ((setIdma_ok t _).trans (ht t hr))
    · exact idmaEvent_ok (ht t hr) _
  next f _ => cases f
  next => exact answersOk_refused _

/-! ### The events -/

theorem irqPinEvent_ok (k : Fin 10) (high : Bool) : (s.irqPinEvent k high).ok = true := by
  unfold State.irqPinEvent
  split
  · dsimp only
    split <;> exact h
  · exact h

theorem powerUp_ok : s.powerUp.ok = true := by
  have hr : State.ok { s with core := .running, irq := { s.irq with pdSeq := false } } = true := h
  exact ite_ok s.pucr (contextReset_ok h) hr

theorem pwdPinEvent_ok (high : Bool) : (s.pwdPinEvent high).ok = true := by
  have hp : State.ok { s with irq := { s.irq with pwdPin := high } } = true := h
  unfold State.pwdPinEvent
  dsimp only
  split
  · exact h
  · split
    · exact powerUp_ok hp
    · exact h

theorem txTake_ok (n : Fin 2) : (s.txTake n).ok = true :=
  have ht (p : Sport) := (setSport_ok s n p).trans h
  ite_ok _ (ht _) ((setLatch_ok _ _).trans (ht _))

theorem rxWord_ok (n : Fin 2) (w : Word) : (s.rxWord n w).ok = true :=
  have ht (p : Sport) := (setSport_ok s n p).trans h
  ite_ok _ (ht _) ((setLatch_ok _ _).trans (ht _))

theorem sportTxEvent_ok (n : Fin 2) : AnswersOk (s.sportTxEvent n) := by
  unfold State.sportTxEvent
  repeat' split
  · exact answersOk_refused _
  · exact answersOk_next (txTake_ok h n)
  · exact answersOk_next h
  · exact answersOk_next h

theorem sportRxEvent_ok (n : Fin 2) (w : Word) : AnswersOk (s.sportRxEvent n w) := by
  unfold State.sportRxEvent
  repeat' split
  · exact answersOk_refused _
  · exact answersOk_next (rxWord_ok h n w)
  · exact answersOk_next h

theorem mcSlotEvent_ok (w : Word) : AnswersOk (s.mcSlotEvent w) := by
  have ht := ite_ok (s.mc.txEn.getLsbD s.mc.slot && !s.sp0.compNew && !s.sp0.compDue) (txTake_ok h 0) h
  have hu := ite_ok (s.mc.rxEn.getLsbD s.mc.slot) (rxWord_ok ht 0 w) ht
  unfold State.mcSlotEvent
  repeat' split
  · exact answersOk_refused _
  · exact answersOk_next hu
  · exact answersOk_next h

theorem mcSyncEvent_ok : s.mcSyncEvent.ok = true := by
  unfold State.mcSyncEvent
  split
  · exact h
  · exact h

theorem sportRxStartEvent_ok (n : Fin 2) : (s.sportRxStartEvent n).ok = true :=
  ite_ok _ ((setSport_ok s n _).trans h) h

/-- What the bus master writes is memory, while the bus is granted. -/
theorem masterWrite_ok {m : Memory} (hm : Memory.wf m = true) : (s.masterWrite { s with mem := m }).ok = true :=
  ite_ok s.bg (ok_withMem h hm) h

theorem resetAssertEvent_ok : s.resetAssertEvent.ok = true := by
  have hm : Memory.wf s.resetAssertEvent.mem = true := wf_of_ok (s := s) h
  exact (ok_iff _).mpr ⟨hm, rfl, rfl, rfl, Stack.empty_ok _⟩

theorem resetReleaseEvent_ok (pins : BitVec 4) : AnswersOk (s.resetReleaseEvent pins) := by
  unfold State.resetReleaseEvent
  split
  · split
    next b _ _ => cases b <;> exact answersOk_next h
    next => exact answersOk_refused _
  · exact answersOk_next h

theorem event_ok (e : Event) : AnswersOk (s.event e) := by
  cases e with
  | go | fiSample | pfInput | busRequest | busRequestAmid | ioPresent => exact answersOk_next h
  | irqPin k high => exact answersOk_next (irqPinEvent_ok h k high)
  | pwdPin high => exact answersOk_next (pwdPinEvent_ok h high)
  | sportTx n => exact sportTxEvent_ok h n
  | sportRx n w => exact sportRxEvent_ok h n w
  | sportRxStart n => exact answersOk_next (sportRxStartEvent_ok h n)
  | mcSync => exact answersOk_next (mcSyncEvent_ok h)
  | mcSlot w => exact mcSlotEvent_ok h w
  | idmaLatch | idmaRead | idmaWrite | idmaLatchAmid => exact idmaEvent_ok h _
  | masterPm => exact answersOk_next (masterWrite_ok h (wf_memSet24 (wf_of_ok h) _ _))
  | masterDm => exact answersOk_next (masterWrite_ok h (wf_memSet16 (wf_of_ok h) _ _))
  | masterBm => exact answersOk_next (masterWrite_ok h (wf_memSet (wf_of_ok h) _ _))
  | resetAssert => exact answersOk_next (resetAssertEvent_ok h)
  | resetRelease pins => exact resetReleaseEvent_ok h pins

/-! ### The step -/

theorem step_ok : AnswersOk (step s) := by
  have hr (rest : List Event) : State.ok { s with env := rest } = true := h
  unfold step
  split
  · exact turn_ok h
  · exact turn_ok (hr _)
  · exact turnBusRequest_ok (hr _) _
  · exact turnIdmaLatch_ok (hr _) _
  · exact costing_ok (event_ok (hr _) _) 0

end

/-- Settles O10: each operation keeps the invariant, so every instruction, every event and the core's turn do. -/
theorem stepKeepsOk : Obligations.StepKeepsOk := fun _ t h ht => step_ok h t ht

end Sys2Proof.Machine
end

section
/-!
PROOFS. The laws of a hardware stack, and SSTAT bit by bit (10_state.md R33, R64 to R66).
-/

namespace Sys2Proof.Machine

/-! ### One stack -/

section
variable {α : Type} {k : Stack α} {d : Nat}

/-- A push below the depth puts the value on top of the entries. -/
theorem Stack.push_below (h0 : 0 ≤ k.n) (hd : k.n < d) (v : α) :
    k.push d v = { k with entries := v :: k.entries, n := k.n + 1, flip := false } := by
  unfold Stack.push
  rw [if_neg (by omega), if_pos hd]

/-- A push on a full stack only counts, and sets the overflow bit. -/
theorem Stack.push_full (h0 : 0 ≤ k.n) (hd : (d : Int) ≤ k.n) (v : α) :
    k.push d v = { k with n := k.n + 1, ovf := true, flip := false } := by
  unfold Stack.push
  rw [if_neg (by omega), if_neg (by omega)]

theorem Stack.top_push_below (h0 : 0 ≤ k.n) (hd : k.n < d) (v f : α) : (k.push d v).top d f = v := by
  rw [Stack.push_below h0 hd]
  exact Stack.top_cons rfl (by dsimp only; omega) (by dsimp only; omega) f

theorem Stack.pop_push_below (h0 : 0 ≤ k.n) (hd : k.n < d) (v : α) : (k.push d v).pop d = { k with flip := false } := by
  rw [Stack.push_below h0 hd, Stack.pop_cons rfl (by dsimp only; omega) (by dsimp only; omega)]
  simp

/-- The value of a stack with more pushes than its depth is lost. -/
theorem Stack.top_overflowed (h : (d : Int) < k.n) (f : α) : k.top d f = f := by
  unfold Stack.top
  rw [if_neg (by omega), if_pos h]

theorem Stack.pop_overflowed (h : (d : Int) < k.n) : k.pop d = { k with n := k.n - 1, flip := false } := by
  unfold Stack.pop
  rw [if_neg (by omega), if_pos h]

@[simp] theorem Stack.pop_ovf (k : Stack α) (d : Nat) : (k.pop d).ovf = k.ovf := by
  unfold Stack.pop
  split
  · rfl
  · split <;> rfl

@[simp] theorem Stack.pop_flip (k : Stack α) (d : Nat) : (k.pop d).flip = false := by
  unfold Stack.pop
  split
  · rfl
  · split <;> rfl

@[simp] theorem Stack.push_flip (k : Stack α) (d : Nat) (v : α) : (k.push d v).flip = false := by
  unfold Stack.push
  split
  · rfl
  · split <;> rfl

theorem Stack.isEmpty_iff (k : Stack α) : k.isEmpty = true ↔ k.n ≤ 0 := decide_eq_true_iff

theorem Stack.emptyBit_eq (k : Stack α) : k.emptyBit = (decide (k.n ≤ 0) != k.flip) := by
  unfold Stack.emptyBit Stack.isEmpty
  cases decide (k.n ≤ 0) <;> cases k.flip <;> rfl

end

/-! ### SSTAT -/

/-- SSTAT has the empty and the overflow bit of the PC, count, status and loop stacks, from bit 0 up. -/
theorem sstat_bits (s : State) :
    s.sstat.getLsbD 0 = s.seq.pcStk.emptyBit ∧ s.sstat.getLsbD 1 = s.seq.pcStk.ovf ∧
    s.sstat.getLsbD 2 = s.seq.cntStk.emptyBit ∧ s.sstat.getLsbD 3 = s.seq.cntStk.ovf ∧
    s.sstat.getLsbD 4 = s.seq.stsStk.emptyBit ∧ s.sstat.getLsbD 5 = s.seq.stsStk.ovf ∧
    s.sstat.getLsbD 6 = s.seq.loopStk.emptyBit ∧ s.sstat.getLsbD 7 = s.seq.loopStk.ovf := by
  simp only [State.sstat, getLsbD_putBit]
  simp

/-- Settles O44, from what a push and a pop do below the depth, at it and on an empty stack, and the bits of SSTAT. -/
theorem stackLaws : Obligations.StackLaws := by
  refine ⟨fun α k d v f => ⟨fun h0 hd => ⟨Stack.top_push_below h0 hd v f, Stack.pop_push_below h0 hd v⟩,
    fun h0 hd => ?_, Stack.pop_ovf k d, Stack.pop_flip k d, Stack.push_flip k d v, fun he => ?_⟩, fun s => ?_⟩
  · have hn : (d : Int) < (k.push d v).n := by rw [Stack.push_full h0 hd]; dsimp only; omega
    rw [Stack.top_overflowed hn, Stack.pop_overflowed hn, Stack.push_full h0 hd]
    exact ⟨rfl, rfl, rfl, rfl⟩
  · have hn := (Stack.isEmpty_iff k).mp he
    rw [Stack.pop_empty hn, Stack.top_empty hn, Stack.isEmpty_iff]
    exact ⟨by dsimp only; omega, rfl, rfl⟩
  · simpa only [Stack.emptyBit_eq] using sstat_bits s

end Sys2Proof.Machine
end

section
/-!
PROOFS. Reset: the values after RESET asserted and in the reset state, and the boot that its release starts (10_state.md R80;
70_reset_and_hazards.md R680 to R685).
-/

namespace Sys2Proof.Machine

/-! ### Values after reset -/

/-- With the four stacks empty, and no bit flipped, SSTAT is 0x55. -/
theorem sstat_of_empty {s : State} (hp : s.seq.pcStk = .empty) (hc : s.seq.cntStk = .empty) (ht : s.seq.stsStk = .empty)
    (hl : s.seq.loopStk = .empty) : s.sstat = 0x55 := by
  unfold State.sstat
  rw [hp, hc, ht, hl]
  decide

/-- The autobuffer control register keeps any index fields: the enables and the other bits are 0. -/
theorem openReset_auto_mask (f : Nat → Word) (k : Nat) : (Sport.openReset f k).auto &&& 0xF003 = 0 := by
  have h : (0x0FFC : Word) &&& 0xF003 = 0 := by decide
  have ha : (Sport.openReset f k).auto = f (k + 4) &&& 0x0FFC := rfl
  rw [ha, BitVec.and_assoc, h]
  exact BitVec.and_zero

theorem openReset_auto_bit (f : Nat → Word) (k : Nat) {j : Nat} (hj : (0xF003 : Word).getLsbD j = true) :
    (Sport.openReset f k).auto.getLsbD j = false := by
  have h := congrArg (BitVec.getLsbD · j) (openReset_auto_mask f k)
  simp only [BitVec.getLsbD_and, hj, Bool.and_true] at h
  exact h.trans BitVec.getLsbD_zero

/-- The autobuffer control register of SPORT1 reads as it is where PDFORCE was not written 1. -/
theorem readMmr_auto1 {s : State} (h : s.sp1.auto.getLsbD 13 = false) : s.readMmr 15 = s.sp1.auto := if_neg (by rw [h]; decide)

/-! ### The steps -/

theorem step_resetAssert {s : State} {rest : List Event} (h : s.env = .resetAssert :: rest) :
    step s = .next ((State.resetAssertEvent { s with env := rest }).count 0) := by
  unfold step
  rw [h]
  rfl

theorem step_resetRelease {s : State} {pins : BitVec 4} {rest : List Event} (h : s.env = .resetRelease pins :: rest) :
    step s = eventDone (State.resetReleaseEvent { s with env := rest } pins) := by
  unfold step
  rw [h]
  rfl

/-- The release of RESET in reset: the pins are latched and the boot they select starts. -/
theorem resetReleaseEvent_boot {s : State} (h : s.core = .inReset) {pins : BitVec 4} {b : Boot} {host : Bool}
    (hb : bootOf s.cfg.member pins = some (b, host)) :
    s.resetReleaseEvent pins = .next (State.startBoot { s with pins := pins } b) := by
  unfold State.resetReleaseEvent
  rw [if_pos h]
  simp only [hb]

/-- Levels of the mode pins that the tables leave out are refused. -/
theorem resetReleaseEvent_undescribed {s : State} (h : s.core = .inReset) {pins : BitVec 4}
    (hb : bootOf s.cfg.member pins = none) : s.resetReleaseEvent pins = .refused .modePinsNotDescribed := by
  unfold State.resetReleaseEvent
  rw [if_pos h]
  simp only [hb]

/-- Settles O11: the values stand in the definitions of the two resets but for the masked index fields, SSTAT and the table of
the boots, which is read pin by pin. -/
theorem resetValues : Obligations.ResetValues := by
  refine ⟨⟨?ok, ?reset, rfl, rfl, rfl⟩, fun s rest he => ⟨_, step_resetAssert he, ?asserted, ?frame⟩, ?released, ?boots⟩
  case ok => decide
  case reset =>
    refine ⟨⟨rfl, rfl, sstat_of_empty rfl rfl rfl rfl, rfl⟩, ⟨rfl, rfl, rfl, rfl, rfl, rfl⟩, ⟨rfl, rfl, rfl, rfl⟩,
      ⟨rfl, rfl, rfl, rfl, rfl, by decide, by decide, by decide⟩, by decide, ⟨rfl, rfl, rfl⟩, ⟨rfl, rfl, rfl, rfl⟩, ⟨rfl, rfl, rfl⟩,
      ⟨rfl, rfl, rfl⟩⟩
  case asserted =>
    refine ⟨⟨rfl, rfl, sstat_of_empty rfl rfl rfl rfl, rfl⟩, ⟨rfl, rfl, rfl, rfl, rfl, rfl⟩, ⟨rfl, rfl, rfl, rfl⟩,
      ⟨rfl, rfl, openReset_auto_bit _ 70 rfl, openReset_auto_bit _ 70 rfl, openReset_auto_bit _ 70 rfl, openReset_auto_mask _ 70,
        openReset_auto_mask _ 80, ?_⟩, ?_,
      ⟨rfl, rfl, rfl⟩, ⟨rfl, rfl, rfl, rfl⟩, ⟨rfl, rfl, rfl⟩, ⟨rfl, rfl, rfl⟩⟩
    · rw [readMmr_auto1 (openReset_auto_bit _ 80 rfl)]
      exact openReset_auto_mask _ 80
    · intro n
      match n with
      | 0 => exact ⟨rfl, rfl, rfl, rfl, rfl, rfl, rfl⟩
      | 1 => exact ⟨rfl, rfl, rfl, rfl, rfl, rfl, rfl⟩
  case frame => exact ⟨rfl, rfl, rfl, rfl, rfl, rfl, rfl, rfl, rfl, rfl, rfl, rfl, rfl⟩
  case released =>
    intro s pins rest he hc
    have hr := step_resetRelease he
    dsimp only
    split
    next hb => rw [hr, resetReleaseEvent_undescribed (s := { s with env := rest }) hc hb]; rfl
    next hb => rw [hr, resetReleaseEvent_boot (s := { s with env := rest }) hc hb]; rfl
    next hb => rw [hr, resetReleaseEvent_boot (s := { s with env := rest }) hc hb]; rfl
    next hb => rw [hr, resetReleaseEvent_boot (s := { s with env := rest }) hc hb]; rfl
  case boots =>
    intro m a b c d
    unfold bootOf
    split
    · cases a <;> cases b <;> cases c <;> cases d <;> rfl
    · cases a <;> cases b <;> cases c <;> cases d <;> rfl

end Sys2Proof.Machine
end

section
/-!
PROOFS. The end of a cycle, part by part: the commands of IFC and ICNTL, the timer, the serial ports, the BDMA byte accesses; and
what the one-cycle actions do (10_state.md R36, R72; 60_exceptions.md R525, R526, R550, R560).
-/

namespace Sys2Proof.Machine

/-! ### IFC and ICNTL on the request latches -/

theorem ifcLevel_lt (k : Nat) (h : k < 8) : ifcLevel k < 10 := by
  unfold ifcLevel
  split <;> omega

/-- One bit of IFC on the latches: the force wins over the clear, and other levels keep theirs. -/
theorem ifcBit_bit (t : State) (v : Word) (latch : BitVec 10) {k : Nat} (hk : k < 8) (j : Nat) :
    (t.ifcBit v latch k).getLsbD j =
      if j = ifcLevel k ∧ t.isEdge (ifcLevel k) = true then v.getLsbD (k + 8) || (latch.getLsbD j && !v.getLsbD k)
      else latch.getLsbD j := by
  have hl := ifcLevel_lt k hk
  unfold State.ifcBit
  cases t.isEdge (ifcLevel k)
  · simp
  · by_cases hj : j = ifcLevel k
    · cases v.getLsbD (k + 8) <;> cases v.getLsbD k <;> simp [getLsbD_putBit, hj, hl, -BitVec.getLsbD_eq_getElem]
    · cases v.getLsbD (k + 8) <;> cases v.getLsbD k <;> simp [getLsbD_putBit, hj]

/-- The latches after the whole command, level by level; bit 7 of IFC is for level 9. -/
theorem ifcStep_latch (t : State) (j : Nat) :
    t.ifcStep.irq.latch.getLsbD j =
      if (j < 7 ∨ j = 9) ∧ t.isEdge j = true then
        t.lat.ifcDue.getLsbD ((if j = 9 then 7 else j) + 8) ||
          (t.irq.latch.getLsbD j && !t.lat.ifcDue.getLsbD (if j = 9 then 7 else j))
      else t.irq.latch.getLsbD j := by
  have hs : t.ifcStep.irq.latch = [0, 1, 2, 3, 4, 5, 6, 7].foldl (t.ifcBit t.lat.ifcDue) t.irq.latch := rfl
  rw [hs]
  have bit (latch : BitVec 10) {k : Nat} (hk : k < 8) := ifcBit_bit t t.lat.ifcDue latch hk j
  simp only [List.foldl, bit _ (show 7 < 8 by decide), bit _ (show 6 < 8 by decide), bit _ (show 5 < 8 by decide),
    bit _ (show 4 < 8 by decide), bit _ (show 3 < 8 by decide), bit _ (show 2 < 8 by decide), bit _ (show 1 < 8 by decide),
    bit _ (show 0 < 8 by decide)]
  match j with
  | 0 | 1 | 2 | 3 | 4 | 5 | 6 | 7 | 8 | 9 => simp [ifcLevel]
  | n + 10 => simp [ifcLevel]

/-- A new ICNTL leaves the latches of the levels whose sensitivity it does not change. -/
theorem icntlLatch_bit (t : State) (new : BitVec 5) (j : Nat) (h : new = t.lat.icntlEff ∨ j ∉ [1, 2, 9]) :
    (t.icntlLatch new).getLsbD j = t.irq.latch.getLsbD j := by
  unfold State.icntlLatch
  rcases h with h | h
  · simp [h]
  · simp only [List.mem_cons, List.not_mem_nil, or_false, not_or] at h
    obtain ⟨h1, h2, h9⟩ := h
    have other (b : Bool) (l : BitVec 10) (k : Nat) (hk : j ≠ k) :
        (if b then putBit l k true else l).getLsbD j = l.getLsbD j := by
      cases b <;> simp [getLsbD_putBit, hk]
    dsimp only
    rw [other _ _ 1 h1, other _ _ 2 h2, other _ _ 9 h9]

/-! ### The timer -/

/-- The timer of the cycle from `s` to `t` ticks. -/
def timerTicks (s t : State) : Bool := s.timerOn && decide (t.timer.tscale ≤ t.timer.tps)

/-- The timer of the cycle from `s` to `t` reaches the end of its count. -/
def timerFires (s t : State) : Bool := timerTicks s t && s.timer.tcount == 0

/-- The timer after a cycle: the count where it ticks, the prescale count where it is enabled or becomes so. -/
theorem timerStep_timer (s t : State) : (s.timerStep t).timer = { t.timer with
    tcount :=
      if timerTicks s t then
        if t.lat.tcountSet then t.timer.tcount else if s.timer.tcount = 0 then t.timer.tperiod else s.timer.tcount - 1
      else t.timer.tcount
    tps := if s.timerOn then (if timerTicks s t then 0 else t.timer.tps + 1) else if t.timerOn then 0 else t.timer.tps } := by
  unfold State.timerStep State.timerTick timerTicks State.timerRequest
  cases s.timerOn
  · cases t.timerOn <;> simp
  · by_cases h : t.timer.tscale ≤ t.timer.tps
    · simp only [h]
      simp
      repeat' split
      all_goals rfl
    · simp [h]

theorem timerRequest_irq (t : State) : t.timerRequest.irq = { t.irq with
    latch := t.timerRequest.irq.latch
    timerWait := if t.irq.latch.getLsbD 0 then t.irq.timerWait else 2 } := by
  unfold State.timerRequest
  split <;> rfl

theorem timerRequest_latch (t : State) (j : Nat) :
    t.timerRequest.irq.latch.getLsbD j = (t.irq.latch.getLsbD j || decide (j = 0)) := by
  unfold State.timerRequest
  split
  next h => by_cases hj : j = 0 <;> simp [hj, h, -BitVec.getLsbD_eq_getElem]
  next h => by_cases hj : j = 0 <;> simp [hj, getLsbD_putBit, -BitVec.getLsbD_eq_getElem]

theorem timerTick_irq (t : State) (old : Word) :
    (t.timerTick old).irq = if t.timer.tscale ≤ t.timer.tps ∧ old = 0 then t.timerRequest.irq else t.irq := by
  unfold State.timerTick
  by_cases hs : t.timer.tscale ≤ t.timer.tps
  · by_cases ho : old = 0
    · have hb : t.timer.tscale ≤ t.timer.tps ∧ old = 0 := ⟨hs, ho⟩
      rw [if_pos hs, if_pos hb]
      dsimp only
      rw [if_pos ho]
      unfold State.timerRequest
      dsimp only
      split <;> rfl
    · have hb : ¬(t.timer.tscale ≤ t.timer.tps ∧ old = 0) := fun h => ho h.2
      rw [if_pos hs, if_neg hb]
      dsimp only
      rw [if_neg ho]
  · have hb : ¬(t.timer.tscale ≤ t.timer.tps ∧ old = 0) := fun h => hs h.1
    rw [if_neg hs, if_neg hb]

/-- The requests after a cycle's timer are those of a request where it fires. -/
theorem timerStep_irq (s t : State) : (s.timerStep t).irq = if timerFires s t then t.timerRequest.irq else t.irq := by
  have h : (s.timerStep t).irq = (if s.timerOn then t.timerTick s.timer.tcount else t).irq := by
    unfold State.timerStep
    dsimp only
    split <;> rfl
  rw [h]
  unfold timerFires timerTicks
  cases s.timerOn
  · simp
  · simp only [if_true, timerTick_irq, Bool.true_and, Bool.and_eq_true, decide_eq_true_eq, beq_iff_eq]

theorem timerStep_latch (s t : State) (j : Nat) :
    (s.timerStep t).irq.latch.getLsbD j = (t.irq.latch.getLsbD j || (decide (j = 0) && timerFires s t)) := by
  rw [timerStep_irq]
  cases timerFires s t
  · simp
  · simp [timerRequest_latch]

/-! ### The serial ports -/

/-- Of a port the clock of a cycle changes the divide counters. -/
theorem tick_eq (p : Sport) (on : Bool) : p.tick on =
    { p with divCur := (p.tick on).divCur, sclkCnt := (p.tick on).sclkCnt, rfsCnt := (p.tick on).rfsCnt } := by
  unfold Sport.tick
  split
  · split <;> rfl
  · rfl

/-- A port's companding steps of a cycle. -/
theorem compandStep_sport (t : State) (k : Fin 2) :
    ∃ txFree rxFree free, t.compandStep.sport k = (t.sport k).compandStep txFree rxFree free := by
  match k with
  | 0 => exact ⟨_, _, _, rfl⟩
  | 1 => exact ⟨_, _, _, rfl⟩

/-! ### A cycle as a whole -/

/-- What runs on in a cycle changes the timer, the requests and the ports. -/
theorem devices_eq (s t : State) : s.devices t = { t with
    timer := (s.timerStep t.timerSync).timer
    irq := (s.timerStep t.timerSync).irq
    sp0 := (t.compandStep.sp0).tick s.sp0.isclk
    sp1 := (t.compandStep.sp1).tick s.sp1.isclk } := by
  obtain ⟨_, _, h, -⟩ := timerStep_only s t.timerSync
  unfold State.devices
  rw [h]
  rfl

/-- A cycle of `n` clocks. -/
theorem deviceCycle_eq (s t : State) (n : Nat) : s.deviceCycle t n = { t with
    timer := (s.timerStep t.timerSync).timer
    irq := (s.timerStep t.timerSync).irq
    sp0 := (t.compandStep.sp0).tick s.sp0.isclk
    sp1 := (t.compandStep.sp1).tick s.sp1.isclk
    bdma := (t.bdmaTick n).bdma
    bg := (t.bdmaTick n).bg
    freeCtr := t.freeCtr + 1
    clock := t.clock + n * s.period } := by
  unfold State.deviceCycle
  rw [devices_eq]
  rfl

/-- The state whose devices run at the end of the cycle from `s` to `t`: IFC, PDFORCE and ICNTL have acted. -/
def acted (s t : State) : State := { t with
  irq := { t.irq with
    latch := t.ifcStep.icntlLatch s.st.icntl
    latchPwd := t.irq.latchPwd || t.lat.pdDue
    pdForced := t.irq.pdForced || t.lat.pdDue
    timerWait := if t.lat.ifcDue.getLsbD 8 then 0 else t.irq.timerWait }
  lat := { t.lat with icntlEff := s.st.icntl } }

theorem acted_eq (s t : State) : s.icntlStep t.ifcStep.pdStep = acted s t := by
  rw [pdStep_eq]
  rfl

theorem acted_latch (s t : State) (j : Nat) (h : s.st.icntl = t.lat.icntlEff ∨ j ∉ [1, 2, 9]) :
    (acted s t).irq.latch.getLsbD j = t.ifcStep.irq.latch.getLsbD j := icntlLatch_bit t.ifcStep s.st.icntl j h

/-- The end of a cycle of `n` clocks. -/
theorem endCycle_eq (s t : State) (n : Nat) : s.endCycle t n = { t with
    timer := (s.timerStep (acted s t).timerSync).timer
    irq := (s.timerStep (acted s t).timerSync).irq
    lat := (acted s t).lat.shift
    sp0 := (t.compandStep.sp0).tick s.sp0.isclk
    sp1 := (t.compandStep.sp1).tick s.sp1.isclk
    bdma := (t.bdmaTick n).bdma
    bg := (t.bdmaTick n).bg
    freeCtr := t.freeCtr + 1
    clock := t.clock + n * s.period } := by
  unfold State.endCycle
  rw [acted_eq, deviceCycle_eq]
  rfl

theorem endCycle_lat (s t : State) (n : Nat) : (s.endCycle t n).lat = (acted s t).lat.shift := by rw [endCycle_eq]

theorem endCycle_irq (s t : State) (n : Nat) :
    (s.endCycle t n).irq = (s.timerStep (acted s t).timerSync).irq := by rw [endCycle_eq]

theorem endCycle_latch (s t : State) (n : Nat) (j : Nat) : (s.endCycle t n).irq.latch.getLsbD j =
    ((acted s t).irq.latch.getLsbD j || (decide (j = 0) && timerFires s t)) := by
  rw [endCycle_irq, timerStep_latch]
  rfl

/-- Settles O51: the buffers move on by `Lat.shift`, and level by level IFC acts as `ifcStep_latch` says, ICNTL and the timer
leaving the latch as it is. -/
theorem oneCycleActions : Obligations.OneCycleActions := by
  refine ⟨fun s v => ⟨rfl, rfl, rfl, rfl, rfl, rfl⟩, fun s t n => ?_⟩
  have hpwd : (s.endCycle t n).irq.latchPwd = (t.irq.latchPwd || t.lat.pdDue) := by
    obtain ⟨_, _, h, hp, -⟩ := timerStep_only s (acted s t).timerSync
    rw [endCycle_irq, h]
    exact hp
  have hlat := endCycle_lat s t n
  refine ⟨by rw [hlat]; rfl, by rw [hlat]; rfl, by rw [hlat]; rfl, by rw [hlat]; rfl, by rw [hlat]; rfl, by rw [hlat]; rfl,
    by rw [hlat]; rfl, hpwd, fun j hj h0 => ?_⟩
  have hf : (decide (j = 0) && timerFires s t) = false := by
    rcases h0 with h0 | h0
    · simp [h0]
    · simp [timerFires, timerTicks, h0]
  rw [endCycle_latch, hf, Bool.or_false, acted_latch s t j hj]
  exact ifcStep_latch t j

end Sys2Proof.Machine
end

section
/-!
PROOFS. The end of an instruction: the delayed pop, the end of the cycle and the prefetch change what they name, and nothing else
(10_state.md R71, R72; 20_memory.md R133).
-/

namespace Sys2Proof.Machine

/-! ### The sequencer at the end of an instruction -/

/-- The sequencer after the delayed pop and the PC stack restrictions, where no outcome is open. -/
theorem pushThenReturn_seq {s t : State}
    (h : (t.lat.use.retPop && (s.lat.push1 || (s.lat.push2 && s.atLoopEnd))) = false) :
    (s.lat.popDue = false → (s.pushThenReturn (s.delayedPop t)).seq = t.seq) ∧
    (s.lat.popDue = true → t.lat.use.pcStack = false → t.lat.use.full = false →
      (s.pushThenReturn (s.delayedPop t)).seq = { t.seq with pcStk := t.seq.pcStk.pop pcDepth }) := by
  refine ⟨fun hd => ?_, fun hd hp hf => ?_⟩
  · have ht : s.delayedPop t = t := if_neg (by simp [hd])
    rw [ht]
    unfold State.pushThenReturn
    rw [if_neg (by simp [h])]
  · have ht : s.delayedPop t = t.popPc := by
      unfold State.delayedPop
      rw [if_pos hd, if_neg (by simp [hp, hf])]
    rw [ht]
    unfold State.pushThenReturn
    rw [if_neg (by simpa [State.popPc] using h)]
    rfl

/-- The state whose cycle the end of an instruction ends. -/
def settled (s t : State) : State := s.pushThenReturn (s.delayedPop t)

theorem settled_eq (s t : State) : settled s t =
    { t with seq := (settled s t).seq, lat := { t.lat with use := (settled s t).lat.use } } := by
  obtain ⟨_, _, h⟩ := pushThenReturn_only s t
  have hs : settled s t = s.pushThenReturn (s.delayedPop t) := rfl
  rw [hs, h]

/-- The end of an instruction is the end of a cycle and the prefetch. -/
theorem finish_eq (s t : State) (i : Instr) : s.finish t i = { s.endCycle (settled s t) (s.cycles (settled s t) i) with
    seq := { (settled s t).seq with prefetch := s.seenFetch.fetchAt t.st.pmovlay (settled s t).seq.pc }
    stalled := false
    held := .none } := by
  have h : s.finish t i =
      { s.prefetchNext (s.endCycle (settled s t) (s.cycles (settled s t) i)) with stalled := false, held := .none } := rfl
  rw [h]
  unfold State.prefetchNext
  rw [endCycle_eq, settled_eq]

section
variable (s t : State) (i : Instr)

/-! ### The cycles of the instruction -/

/-- The cost counts the fetch at the PC that the instruction leaves. -/
theorem finish_cycles : s.cycles (s.finish t i) i = s.cycles (settled s t) i := by
  have h : (s.finish t i).fetchExtern = (settled s t).fetchExtern := by
    rw [finish_eq, endCycle_eq]
    rfl
  unfold State.cycles State.extAccesses State.fetchLeft
  rw [h]

theorem cycles_eq (u : State) : s.cycles u i = 1 +
    ((s.fetchLeft u).toNat + (s.pmLeft i).toNat + (s.dmExtern i).toNat + (ioAccess i).isSome.toNat - 1) +
    (s.ownFetch.toNat + (s.fetchLeft u).toNat + (s.pmLeft i).toNat) * s.pwait + (s.dmExtern i).toNat * s.dwait +
    ((ioAccess i).map s.iowait).getD 0 := by
  unfold State.cycles State.extAccesses
  dsimp only
  omega

/-! ### BDMA -/

theorem bdmaTick_bdma (n : Nat) : (t.bdmaTick n).bdma = if t.bdma.active = true ∧ t.bg = false
    then { t.bdma with wait := t.bdma.wait - if t.br then min n (t.byteLeft 0) else n } else t.bdma := by
  unfold State.bdmaTick
  simp only [Bool.and_eq_true, Bool.not_eq_true']

/-! ### What an instruction's end leaves and changes -/

/-- All that the end of an instruction changes. -/
theorem finish_all : s.finish t i = { t with
    seq := { (settled s t).seq with prefetch := s.seenFetch.fetchAt t.st.pmovlay (settled s t).seq.pc }
    timer := (s.finish t i).timer
    irq := (s.finish t i).irq
    lat := (s.finish t i).lat
    sp0 := (t.compandStep.sp0).tick s.sp0.isclk
    sp1 := (t.compandStep.sp1).tick s.sp1.isclk
    bdma := (t.bdmaTick (s.cycles (s.finish t i) i)).bdma
    bg := (t.bdmaTick (s.cycles (s.finish t i) i)).bg
    stalled := false
    held := .none
    freeCtr := t.freeCtr + 1
    clock := t.clock + s.cycles (s.finish t i) i * s.period } := by
  rw [finish_cycles, finish_eq, endCycle_eq]
  generalize s.cycles (settled s t) i = n
  rw [settled_eq]
  rfl

theorem finish_lat : (s.finish t i).lat = { (acted s t).lat.shift with use := Use.none } := by
  rw [finish_eq]
  dsimp only
  rw [endCycle_lat, settled_eq]
  rfl

theorem finish_sport (k : Fin 2) : (s.finish t i).sport k = (t.compandStep.sport k).tick (s.sport k).isclk := by
  rw [finish_all]
  match k with
  | 0 => rfl
  | 1 => rfl

theorem finish_timer : (s.finish t i).timer = { t.timer with
    tcount :=
      if timerTicks s t then
        if t.lat.tcountSet then t.timer.tcount else if s.timer.tcount = 0 then t.timer.tperiod else s.timer.tcount - 1
      else t.timer.tcount
    tps := if s.timerOn then (if timerTicks s t then 0 else t.timer.tps + 1) else if t.timerOn then 0 else t.timer.tps } := by
  rw [finish_eq, endCycle_eq]
  dsimp only
  rw [timerStep_timer, settled_eq]
  rfl

/-- A request is in the latch of level 0 when the timer of the cycle runs. -/
def timerAsked (t : State) : Bool :=
  t.lat.ifcDue.getLsbD 8 || (t.irq.latch.getLsbD 0 && !t.lat.ifcDue.getLsbD 0)

theorem acted_latch_zero : (acted s t).irq.latch.getLsbD 0 = timerAsked t :=
  (acted_latch s t 0 (.inr (by decide))).trans (ifcStep_latch t 0)

theorem endCycle_irq_fields (n : Nat) : (s.endCycle t n).irq = { t.irq with
    latch := (s.endCycle t n).irq.latch
    latchPwd := t.irq.latchPwd || t.lat.pdDue
    pdForced := t.irq.pdForced || t.lat.pdDue
    timerWait := if timerFires s t && !timerAsked t then 2
      else (if t.lat.ifcDue.getLsbD 8 then 0 else t.irq.timerWait) - 1 } := by
  have hf : timerFires s (acted s t).timerSync = timerFires s t := rfl
  have ha : (acted s t).timerSync.irq.latch.getLsbD 0 = timerAsked t := acted_latch_zero s t
  rw [endCycle_irq, timerStep_irq, hf, timerRequest_irq, ha]
  cases timerFires s t <;> cases timerAsked t <;> rfl

theorem finish_irq : (s.finish t i).irq = { t.irq with
    latch := (s.finish t i).irq.latch
    latchPwd := t.irq.latchPwd || t.lat.pdDue
    pdForced := t.irq.pdForced || t.lat.pdDue
    timerWait := if timerFires s t && !timerAsked t then 2
      else (if t.lat.ifcDue.getLsbD 8 then 0 else t.irq.timerWait) - 1 } := by
  have h : (s.finish t i).irq = (s.endCycle (settled s t) (s.cycles (settled s t) i)).irq := by rw [finish_eq]
  rw [h]
  refine (endCycle_irq_fields s (settled s t) _).trans ?_
  generalize (s.endCycle (settled s t) (s.cycles (settled s t) i)).irq.latch = latch
  rw [settled_eq]
  rfl

theorem finish_latch (n j : Nat) : (s.finish t i).irq.latch.getLsbD j = (s.endCycle t n).irq.latch.getLsbD j := by
  rw [finish_eq]
  dsimp only
  rw [endCycle_latch, endCycle_latch, settled_eq]
  rfl

/-- With no command due and ICNTL as it is in use, a latch other than the timer's keeps its value. -/
theorem endCycle_latch_quiet {s t : State} (hi : t.lat.ifcDue = 0) (hc : s.st.icntl = t.lat.icntlEff) (n : Nat) {j : Nat}
    (hj : j ≠ 0) : (s.endCycle t n).irq.latch.getLsbD j = t.irq.latch.getLsbD j := by
  have h0 (k : Nat) : (0 : Word).getLsbD k = false := BitVec.getLsbD_zero
  rw [endCycle_latch, acted_latch s t j (.inl hc), ifcStep_latch, hi, h0, h0]
  simp [hj]

/-! ### The ports -/

/-- Companding keeps a value that is not due, and the write of this cycle becomes due. -/
theorem compandStep_notDue (p : Sport) (txFree rxFree : Bool) (free : Word) :
    (p.compDue = false →
      (p.compandStep txFree rxFree free).tx = p.tx ∧ (p.compandStep txFree rxFree free).compDue = p.compNew) ∧
    (p.expDue = false →
      (p.compandStep txFree rxFree free).rx = p.rx ∧ (p.compandStep txFree rxFree free).expDue = p.expNew) :=
  ⟨fun h => by simp [Sport.compandStep, h], fun h => by simp [Sport.compandStep, h]⟩

theorem tick_within {p : Sport} (h : p.sclkCnt + 1 < 2 * (p.divCur.toNat + 1)) :
    p.tick true = { p with sclkCnt := p.sclkCnt + 1 } := if_pos h

theorem tick_edge {p : Sport} (h : ¬p.sclkCnt + 1 < 2 * (p.divCur.toNat + 1)) : p.tick true = { p with
    sclkCnt := 0
    divCur := p.sclkdiv
    rfsCnt := if p.irfs then (if p.rfsCnt < p.rfsdiv.toNat then p.rfsCnt + 1 else 0) else p.rfsCnt } := if_neg h

/-- What a cycle's companding and clock do to a port: `on` says that the clock ran at the start of the cycle. -/
theorem companded_tick (p : Sport) (txFree rxFree : Bool) (free : Word) (on : Bool) :
    let q := (p.compandStep txFree rxFree free).tick on
    q = { p with
      tx := q.tx, rx := q.rx, compNew := false, compDue := q.compDue, expNew := false, expDue := q.expDue, expBusy := false
      divCur := q.divCur, sclkCnt := q.sclkCnt, rfsCnt := q.rfsCnt } ∧
    (p.compDue = false → q.tx = p.tx ∧ q.compDue = p.compNew) ∧ (p.expDue = false → q.rx = p.rx ∧ q.expDue = p.expNew) ∧
    if on = true then
      if p.sclkCnt + 1 < 2 * (p.divCur.toNat + 1) then
        q.sclkCnt = p.sclkCnt + 1 ∧ q.divCur = p.divCur ∧ q.rfsCnt = p.rfsCnt
      else q.sclkCnt = 0 ∧ q.divCur = p.sclkdiv ∧
        q.rfsCnt = if p.irfs then (if p.rfsCnt < p.rfsdiv.toNat then p.rfsCnt + 1 else 0) else p.rfsCnt
    else q.sclkCnt = p.sclkCnt ∧ q.divCur = p.sclkdiv ∧ q.rfsCnt = p.rfsCnt := by
  obtain ⟨htx, hrx⟩ := compandStep_notDue p txFree rxFree free
  intro q
  cases on with
  | false => exact ⟨rfl, htx, hrx, rfl, rfl, rfl⟩
  | true =>
    rw [if_pos rfl]
    by_cases h : p.sclkCnt + 1 < 2 * (p.divCur.toNat + 1)
    · have hq : q = _ := tick_within (p := p.compandStep txFree rxFree free) h
      rw [if_pos h, hq]
      exact ⟨rfl, htx, hrx, rfl, rfl, rfl⟩
    · have hq : q = _ := tick_edge (p := p.compandStep txFree rxFree free) h
      rw [if_neg h, hq]
      exact ⟨rfl, htx, hrx, rfl, rfl, rfl⟩

end

/-- Settles O6, part by part: `finish_all` gives the frame, and each device has its own equation. -/
theorem finishKeeps : Obligations.FinishKeeps := by
  intro s t i u w
  have hall : u = _ := finish_all s t i
  refine ⟨?regs, ?devices, ?bus, ?held, ?seq, ?lat, ?cycles, ?timer, ?ports⟩
  case regs => rw [hall]; exact ⟨rfl, rfl, rfl, rfl, rfl, rfl, rfl⟩
  case devices => rw [hall]; exact ⟨rfl, rfl, rfl, rfl, rfl, rfl⟩
  case bus => rw [hall]; exact ⟨rfl, rfl, rfl, rfl, rfl, rfl⟩
  case held =>
    intro h
    have hm : withHeld s.mem s.held.fetch = s.mem := by rw [h]; rfl
    have hs : s.seenFetch = s := by unfold State.seenFetch; rw [hm]
    exact congrArg (State.fetchAt · t.st.pmovlay t.seq.pc) hs
  case seq =>
    intro h
    obtain ⟨hnone, hpop⟩ := pushThenReturn_seq h
    have hseq : u.seq = { (settled s t).seq with
        prefetch := s.seenFetch.fetchAt t.st.pmovlay (settled s t).seq.pc } := by rw [hall]
    refine ⟨fun hd => ?_, fun hd hp hf => ?_⟩
    · have hv : (settled s t).seq = t.seq := hnone hd
      rw [hseq, hv]
    · have hv : (settled s t).seq = { t.seq with pcStk := t.seq.pcStk.pop pcDepth } := hpop hd hp hf
      rw [hseq, hv]
  case lat => exact finish_lat s t i
  case cycles =>
    refine ⟨(cycles_eq s i u).trans (by cases ioAccess i <;> rfl), congrArg State.freeCtr hall, congrArg State.clock hall, congrArg State.bg hall, ?_⟩
    exact (congrArg State.bdma hall).trans (bdmaTick_bdma t _)
  case timer =>
    refine ⟨finish_timer s t i, finish_irq s t i, ?_, fun j _ => finish_latch s t i 0 j, fun hi hc j hj => ?_⟩
    · rw [finish_latch s t i 0, endCycle_latch, acted_latch_zero]
      rfl
    · exact (finish_latch s t i 0 j).trans (endCycle_latch_quiet hi hc 0 hj)
  case ports =>
    intro k p q
    have hq : q = _ := finish_sport s t i k
    obtain ⟨txFree, rxFree, free, hc⟩ := compandStep_sport t k
    have hport : q = ((t.sport k).compandStep txFree rxFree free).tick (s.sport k).isclk := by rw [hq, hc]
    refine ⟨?_, ?_⟩
    · rw [hq]
      exact tick_eq _ _
    · rw [hport]
      exact companded_tick (t.sport k) txFree rxFree free (s.sport k).isclk

end Sys2Proof.Machine
end

section
/-!
PROOFS. A register loaded: what it reads as, what the load changes, and that every other register reads as before (10_state.md
R22 to R38; 43_move.md R373, R374).
-/

namespace Sys2Proof.Machine

/-! ### A value cut to a width -/

/-- A word cut to `n` bits and read back with zeros above them. -/
theorem setWidth_setWidth_word (v : Word) {n : Nat} (h : n ≤ 16) :
    (v.setWidth n).setWidth 16 = v &&& BitVec.ofNat 16 (2 ^ n - 1) := by
  have hp : 2 ^ n ≤ 2 ^ 16 := Nat.pow_le_pow_right (by decide) h
  have hpos : 0 < 2 ^ n := Nat.two_pow_pos n
  apply BitVec.eq_of_toNat_eq
  rw [BitVec.toNat_setWidth, BitVec.toNat_setWidth, BitVec.toNat_and, BitVec.toNat_ofNat, Nat.mod_eq_of_lt (by omega : 2 ^ n - 1 < 2 ^ 16),
    Nat.and_two_pow_sub_one_eq_mod, Nat.mod_eq_of_lt]
  exact Nat.lt_of_lt_of_le (Nat.mod_lt _ hpos) hp

/-! ### Data registers -/

theorem dreg_setDreg_self (b : Bank) (d : Dreg) (v : Word) :
    (b.setDreg d v).dreg d = if d = .se ∨ d = .mr2 then (v.setWidth 8).signExtend 16 else v := by
  cases d <;> rfl

/-- A data register written leaves the others, but that MR1 extends into MR2. -/
theorem dreg_setDreg_other (b : Bank) {d e : Dreg} (v : Word) (h : e ≠ d) (hm : d = .mr1 → e ≠ .mr2) :
    (b.setDreg d v).dreg e = b.dreg e := by
  cases d <;> cases e <;> first | rfl | exact absurd rfl h | exact absurd rfl (hm rfl)

theorem setDreg_rest (b : Bank) (d : Dreg) (v : Word) :
    (b.setDreg d v).af = b.af ∧ (b.setDreg d v).mf = b.mf ∧ (b.setDreg d v).sb = b.sb := by
  cases d <;> exact ⟨rfl, rfl, rfl⟩

/-! ### Loads as updates of the machine -/

section
variable (s : State) (v : Word)

theorem load_cntr_eq : s.load .cntr v = { s with
    seq := { s.seq with
      cntr := v.setWidth 14
      cntrValid := true
      cntStk := if s.seq.cntrValid then s.seq.cntStk.push cntDepth s.seq.cntr else s.seq.cntStk }
    lat := { s.lat with use := { s.lat.use with cntr := true, count := true } } } := by
  have h : s.load .cntr v = s.writeCntr (v.setWidth 14) := rfl
  rw [h]
  unfold State.writeCntr
  cases s.seq.cntrValid <;> rfl

/-- Bit 3 of ICNTL is open and the others read as loaded. -/
theorem icntl_word (free : BitVec 5) : (openBits 0x08 (v.setWidth 5) free).setWidth 16 &&& 0xFFF7 = v &&& 0x0017 := by
  apply BitVec.eq_of_getLsbD_eq
  intro i hi
  simp only [BitVec.getLsbD_and, BitVec.getLsbD_setWidth, getLsbD_openBits]
  interval_cases i <;> simp

theorem load_dag_bus (n : Fin 8) : (s.load (.i n) v).bus (.i n) = v &&& 0x3FFF ∧ (s.load (.l n) v).bus (.l n) = v &&& 0x3FFF ∧
    (s.load (.m n) v).bus (.m n) = (v.setWidth 14).signExtend 16 := by
  simp only [State.load, State.bus, State.setI, State.setL, State.setM, Fin.getElem_fin, Vector.getElem_set_self]
  exact ⟨setWidth_setWidth_word v (by decide), setWidth_setWidth_word v (by decide), trivial⟩

/-! ### What a load leaves readable -/

variable {r r' : Reg}

theorem setBank_bus (b : Bank) (hd : ∀ d, r ≠ .d d) (hs : r ≠ .sb) : (s.setBank b).bus r = s.bus r := by
  rw [setBank_eq]
  cases r with
  | d d => exact absurd rfl (hd d)
  | sb => exact absurd rfl hs
  | _ => rfl

theorem loadDreg_bus (d : Dreg) (h : r' ≠ .d d) (hm : d = .mr1 → r' ≠ .d .mr2) : (s.loadDreg d v).bus r' = s.bus r' := by
  cases r' with
  | d e =>
    have hb : (s.loadDreg d v).bus (.d e) = (s.bank.setDreg d v).dreg e := by rw [← loadDreg_bank]; rfl
    exact hb.trans (dreg_setDreg_other _ v (fun he => h (congrArg Reg.d he)) (fun hd he => hm hd (congrArg Reg.d he)))
  | sb =>
    have hb : (s.loadDreg d v).bus .sb = (s.bank.setDreg d v).sb.signExtend 16 := by rw [← loadDreg_bank]; rfl
    rw [hb, (setDreg_rest s.bank d v).2.2]
    rfl
  | _ => exact setBank_bus s _ nofun nofun

theorem loadSb_bus (h : r' ≠ .sb) : (s.load .sb v).bus r' = s.bus r' := by
  cases r' with
  | d e =>
    have hb : (s.load .sb v).bus (.d e) = (s.load .sb v).bank.dreg e := rfl
    have hl : (s.load .sb v).bank = { s.bank with sb := v.setWidth 5 } := setBank_bank s _
    rw [hb, hl]
    cases e <;> rfl
  | sb => exact absurd rfl h
  | _ => exact setBank_bus s _ nofun nofun

/-- A load of one address register leaves the seven others of its kind. -/
theorem set_other (x : Vector Addr 8) (a : Addr) {n k : Fin 8} (h : k ≠ n) : (x.set n a)[k] = x[k] := by
  have hne : n.val ≠ k.val := fun hv => h (Fin.ext hv.symm)
  simp [Vector.getElem_set_ne, hne]

/-- A register loaded leaves every other one as it reads, but that MR1 extends into MR2, that MSTAT selects the bank, and that
CNTR and OWRCNTR reach CNTR and SSTAT. -/
theorem load_bus_other (h : r' ≠ r) (hm : r = .d .mr1 → r' ≠ .d .mr2) (hst : r ≠ .mstat)
    (hc : r = .cntr ∨ r = .owrcntr → r' ≠ .cntr ∧ r' ≠ .owrcntr ∧ r' ≠ .sstat) : (s.load r v).bus r' = s.bus r' := by
  cases r with
  | d d => exact loadDreg_bus s v d h (fun hd => hm (congrArg Reg.d hd))
  | sb => exact loadSb_bus s v h
  | mstat => exact absurd rfl hst
  | cntr =>
    obtain ⟨h1, h2, h3⟩ := hc (.inl rfl)
    rw [load_cntr_eq]
    cases r' with
    | cntr => exact absurd rfl h1
    | owrcntr => exact absurd rfl h2
    | sstat => exact absurd rfl h3
    | _ => rfl
  | owrcntr =>
    obtain ⟨h1, h2, h3⟩ := hc (.inr rfl)
    cases r' with
    | cntr => exact absurd rfl h1
    | owrcntr => exact absurd rfl h2
    | sstat => exact absurd rfl h3
    | _ => rfl
  | i n =>
    cases r' with
    | i k => exact congrArg (BitVec.setWidth 16) (set_other s.dag.i _ (fun hk => h (congrArg Reg.i hk)))
    | _ => rfl
  | m n =>
    cases r' with
    | m k => exact congrArg (BitVec.signExtend 16) (set_other s.dag.m _ (fun hk => h (congrArg Reg.m hk)))
    | _ => rfl
  | l n =>
    cases r' with
    | l k => exact congrArg (BitVec.setWidth 16) (set_other s.dag.l _ (fun hk => h (congrArg Reg.l hk)))
    | _ => rfl
  | pmovlay | dmovlay | astat | sstat | imask | icntl | px | ifc | rx0 | tx0 | rx1 | tx1 =>
    cases r' <;> first | rfl | contradiction

end

/-- Settles O34: what a register holds is its width of the value loaded, each load is one update of the machine, and the others
read as before. -/
theorem registerLoads : Obligations.RegisterLoads := by
  intro s v
  have hcut {n : Nat} (h : n ≤ 16) := setWidth_setWidth_word v h
  have hdreg (d : Dreg) : (s.load (.d d) v).bus (.d d) = (s.bank.setDreg d v).dreg d := by rw [← loadDreg_bank]; rfl
  have hsb : (s.load .sb v).bank = { s.bank with sb := v.setWidth 5 } := setBank_bank s _
  have hcntr : (s.load .cntr v).bus .cntr = v &&& 0x3FFF := by
    rw [load_cntr_eq]
    exact hcut (n := 14) (by decide)
  refine ⟨fun d => (hdreg d).trans (dreg_setDreg_self _ d v), load_dag_bus s v, ?sb, hcut (n := 8) (by decide),
    hcut (n := 4) (by decide), hcut (n := 4) (by decide), hcut (n := 8) (by decide), hcut (n := 7) (by decide), hcntr,
    hcut (n := 14) (by decide), rfl, rfl, hcut (n := 10) (by decide), icntl_word v _, ⟨fun d => ?dreg, rfl⟩,
    fun n => ⟨rfl, rfl, rfl⟩, rfl, rfl, rfl, rfl, rfl, rfl, rfl, rfl, load_cntr_eq s v, rfl, ⟨rfl, rfl, rfl, rfl⟩,
    fun r r' h hm hst hc => ⟨load_bus_other s v h hm hst hc, fun a => ?mem⟩⟩
  case sb => exact congrArg (fun b : Bank => b.sb.signExtend 16) hsb
  case dreg =>
    refine ⟨s.bank.setDreg d v, rfl, fun e he hm => dreg_setDreg_other _ v he hm, dreg_setDreg_self _ d v, ?_,
      setDreg_rest _ d v⟩
    rintro rfl
    rfl
  case mem => rw [load_mem]

end Sys2Proof.Machine
end

section
/-!
PROOFS. The memory-mapped registers: what each reads after it is written, and that the others read as before (10_state.md R41 to
R56).
-/

namespace Sys2Proof.Machine

/-! ### Words with open bits -/

/-- The bits that are not open read as they are. -/
theorem openBits_and {w : Nat} (mask v free keep : BitVec w) (h : mask &&& keep = 0#w) :
    openBits mask v free &&& keep = v &&& keep := by
  apply BitVec.eq_of_getLsbD_eq
  intro j _
  have hj := congrArg (BitVec.getLsbD · j) h
  simp only [BitVec.getLsbD_and, BitVec.getLsbD_zero] at hj
  simp only [BitVec.getLsbD_and, getLsbD_openBits]
  cases hm : mask.getLsbD j
  · rfl
  · simp only [hm, Bool.true_and] at hj
    simp [hj]

/-- The two halves of a 32-bit word written one at a time. -/
theorem append_low (h v : Word) : (h ++ v : BitVec 32).extractLsb' 0 16 = v := by
  apply BitVec.eq_of_getLsbD_eq
  intro j hj
  rw [BitVec.getLsbD_extractLsb', BitVec.getLsbD_append]
  simp [hj]

theorem append_high (h v : Word) : (h ++ v : BitVec 32).extractLsb' 16 16 = h := by
  apply BitVec.eq_of_getLsbD_eq
  intro j hj
  rw [BitVec.getLsbD_extractLsb', BitVec.getLsbD_append]
  simp [hj]

/-! ### What a control register reads depends on one device

Another value of a device leaves the registers of the others; of its own it leaves those whose field is as before. -/

section
variable (s : State) {j : Nat}

/- One lemma after another, as in Laws/PerInstr.lean: each waits for the same equation of `readMmr`, on a thread of its own. -/
set_option Elab.async false

theorem readMmr_idma (d : Idma) (h0 : j = 0 → d.ctlWord = s.idma.ctlWord) (h7 : j = 7 → d.ovl = s.idma.ovl) :
    State.readMmr { s with idma := d } j = s.readMmr j := by
  unfold State.readMmr
  split
  case h_1 => exact congrArg (s.readOpen 0 0x8000) (h0 rfl)
  case h_8 => exact congrArg (fun o : Word => if s.cfg.member.hasIdmaOvl then
      s.readOpen 7 (if s.cfg.member.isMN then 0x3F00 else 0x7F00) (putBit o 15 false)
    else s.readOpen 7 0xFFFF 0) (h7 rfl)
  all_goals rfl

theorem readMmr_bdma (b : Bdma) (h1 : j = 1 → b.biad = s.bdma.biad) (h2 : j = 2 → b.bead = s.bdma.bead)
    (h3 : j = 3 → b.ctl = s.bdma.ctl) (h4 : j = 4 → b.bwcount = s.bdma.bwcount) :
    State.readMmr { s with bdma := b } j = s.readMmr j := by
  unfold State.readMmr
  split
  case h_2 => exact congrArg (fun a : Addr => s.readOpen 1 0xC000 (a.setWidth 16)) (h1 rfl)
  case h_3 => exact congrArg (fun a : Addr => s.readOpen 2 0xC000 (a.setWidth 16)) (h2 rfl)
  case h_4 => exact congrArg (s.readOpen 3 _) (h3 rfl)
  case h_5 => exact congrArg (BitVec.setWidth 16) (h4 rfl)
  all_goals rfl

theorem readMmr_pfOut (v : BitVec 8) (h5 : j ≠ 5) :
    State.readMmr { s with flags := { s.flags with pfOut := v } } j = s.readMmr j := by
  unfold State.readMmr
  split
  case h_6 => exact absurd rfl h5
  all_goals rfl

theorem readMmr_ctl (c : Ctl) (h6 : j = 5 ∨ j = 6 → c.pfCtl = s.ctl.pfCtl) (h30 : j = 30 → c.waitCtl = s.ctl.waitCtl)
    (h31 : j = 31 → c.sysCtl = s.ctl.sysCtl) : State.readMmr { s with ctl := c } j = s.readMmr j := by
  unfold State.readMmr
  split
  case h_6 => exact congrArg (fun m : Word => (openBits (m.setWidth 8) s.flags.pfIn s.flags.pfOut).setWidth 16) (h6 (.inl rfl))
  case h_7 => exact congrArg (s.readOpen 6 _) (h6 (.inr rfl))
  case h_24 => exact congrArg (s.readOpen 30 _) (h30 rfl)
  case h_25 => exact congrArg (s.readOpen 31 _) (h31 rfl)
  all_goals rfl

theorem readMmr_sp1 (p : Sport) (h15 : j = 15 → p.auto = s.sp1.auto) (h16 : j = 16 → p.rfsdiv = s.sp1.rfsdiv)
    (h17 : j = 17 → p.sclkdiv = s.sp1.sclkdiv) (h18 : j = 18 → p.ctl = s.sp1.ctl) :
    State.readMmr { s with sp1 := p } j = s.readMmr j := by
  unfold State.readMmr
  split
  case h_9 => exact congrArg (fun a : Word => if a.getLsbD 13 then s.readOpen 15 0x2000 a else a) (h15 rfl)
  case h_10 => exact h16 rfl
  case h_11 => exact h17 rfl
  case h_12 => exact congrArg (putBit · 15 s.flags.fo) (h18 rfl)
  all_goals rfl

theorem readMmr_sp0 (p : Sport) (h19 : j = 19 → p.auto = s.sp0.auto) (h20 : j = 20 → p.rfsdiv = s.sp0.rfsdiv)
    (h21 : j = 21 → p.sclkdiv = s.sp0.sclkdiv) (h22 : j = 22 → p.ctl = s.sp0.ctl) :
    State.readMmr { s with sp0 := p } j = s.readMmr j := by
  unfold State.readMmr
  split
  case h_13 => exact congrArg (s.readOpen 19 0xA000) (h19 rfl)
  case h_14 => exact h20 rfl
  case h_15 => exact h21 rfl
  case h_16 => exact h22 rfl
  all_goals rfl

theorem readMmr_mc (m : Multi) (h23 : j = 23 → m.txEn.extractLsb' 0 16 = s.mc.txEn.extractLsb' 0 16)
    (h24 : j = 24 → m.txEn.extractLsb' 16 16 = s.mc.txEn.extractLsb' 16 16)
    (h25 : j = 25 → m.rxEn.extractLsb' 0 16 = s.mc.rxEn.extractLsb' 0 16)
    (h26 : j = 26 → m.rxEn.extractLsb' 16 16 = s.mc.rxEn.extractLsb' 16 16) :
    State.readMmr { s with mc := m } j = s.readMmr j := by
  unfold State.readMmr
  split
  case h_17 => exact h23 rfl
  case h_18 => exact h24 rfl
  case h_19 => exact h25 rfl
  case h_20 => exact h26 rfl
  all_goals rfl

theorem readMmr_timer (t : Timer) (h27 : j = 27 → t.tscale = s.timer.tscale) (h28 : j = 28 → t.tcount = s.timer.tcount)
    (h29 : j = 29 → t.tperiod = s.timer.tperiod) : State.readMmr { s with timer := t } j = s.readMmr j := by
  unfold State.readMmr
  split
  case h_21 => exact congrArg (fun a : BitVec 8 => s.readOpen 27 0xFF00 (a.setWidth 16)) (h27 rfl)
  case h_22 => exact h28 rfl
  case h_23 => exact h29 rfl
  all_goals rfl

end

/-! ### Writing -/

section
variable (s : State) (v : Word)

/-- BIAD and BEAD written while no transfer runs. -/
theorem writeBdmaAddr_idle (bead biad : Addr) (h : s.bdma.active = false) :
    s.writeBdmaAddr bead biad = { s with bdma := { s.bdma with bead := bead, biad := biad } } := by
  unfold State.writeBdmaAddr
  simp only [h, Bool.false_eq_true, if_false]

/-- A control register written leaves the others as they read: PF directions decide what the flag data read, and a transfer that
runs has BIAD and BEAD open together. -/
theorem readMmr_writeMmr_other {k j : Nat} (hj : j ≠ k) (h5 : k = 6 → j ≠ 5)
    (hopen : s.bdma.active = true → k = 1 ∨ k = 2 → j ≠ 1 ∧ j ≠ 2) : (s.writeMmr k v).readMmr j = s.readMmr j := by
  have same {α : Type} {n : Nat} (a : α) : j = n → a = a := fun _ => rfl
  have not {P : Prop} (h : j = k) : P := absurd h hj
  have addr (bead biad : Addr) (hk : k = 1 ∨ k = 2) (h1 : j = 1 → biad = s.bdma.biad) (h2 : j = 2 → bead = s.bdma.bead) :
      (s.writeBdmaAddr bead biad).readMmr j = s.readMmr j := by
    cases ha : s.bdma.active
    · rw [writeBdmaAddr_idle s bead biad ha]
      exact readMmr_bdma s _ h1 h2 (same _) (same _)
    · obtain ⟨n1, n2⟩ := hopen ha hk
      exact readMmr_bdma s _ (fun h => absurd h n1) (fun h => absurd h n2) (same _) (same _)
  unfold State.writeMmr
  split
  case h_1 => exact readMmr_idma s _ not (same _)
  case h_2 => exact addr _ _ (.inl rfl) not (same _)
  case h_3 => exact addr _ _ (.inr rfl) (same _) not
  case h_4 => exact readMmr_bdma s _ (same _) (same _) not (same _)
  case h_5 => exact readMmr_bdma s _ (same _) (same _) (same _) not
  case h_6 => exact readMmr_pfOut s _ hj
  case h_7 => exact readMmr_ctl s _ (fun h => h.elim (fun h => absurd h (h5 rfl)) not) (same _) (same _)
  case h_8 =>
    split
    · exact readMmr_idma s _ (same _) not
    · rfl
  case h_9 => exact readMmr_sp1 s _ not (same _) (same _) (same _)
  case h_10 => exact readMmr_sp1 s _ (same _) not (same _) (same _)
  case h_11 => exact readMmr_sp1 s _ (same _) (same _) not (same _)
  case h_12 => exact readMmr_sp1 s _ (same _) (same _) (same _) not
  case h_13 => exact readMmr_sp0 s _ not (same _) (same _) (same _)
  case h_14 => exact readMmr_sp0 s _ (same _) not (same _) (same _)
  case h_15 => exact readMmr_sp0 s _ (same _) (same _) not (same _)
  case h_16 => exact readMmr_sp0 s _ (same _) (same _) (same _) not
  case h_17 => exact readMmr_mc s _ not (fun _ => append_high _ _) (same _) (same _)
  case h_18 => exact readMmr_mc s _ (fun _ => append_low _ _) not (same _) (same _)
  case h_19 => exact readMmr_mc s _ (same _) (same _) not (fun _ => append_high _ _)
  case h_20 => exact readMmr_mc s _ (same _) (same _) (fun _ => append_low _ _) not
  case h_21 => exact readMmr_timer s _ not (same _) (same _)
  case h_22 => exact readMmr_timer s _ (same _) not (same _)
  case h_23 => exact readMmr_timer s _ (same _) (same _) not
  case h_24 => exact readMmr_ctl s _ (fun _ => rfl) not (same _)
  case h_25 =>
    have h0 := readMmr_sp0 s (s.sp0.whileOn (v.getLsbD 12)) (same _) (same _) (same _) (same _)
    have h1 := readMmr_sp1 { s with sp0 := s.sp0.whileOn (v.getLsbD 12) } (s.sp1.whileOn (v.getLsbD 11 && v.getLsbD 10))
      (same _) (same _) (same _) (same _)
    exact (readMmr_ctl _ { s.ctl with sysCtl := v } (fun _ => rfl) (same _) not).trans (h1.trans h0)
  case h_26 => rfl

/-! ### Reading back -/

/-- The registers all of whose bits are kept. -/
theorem readMmr_writeMmr_whole {k : Nat} (hk : k ∈ [16, 17, 20, 21, 22, 23, 24, 25, 26, 28, 29]) :
    (s.writeMmr k v).readMmr k = v := by
  simp only [List.mem_cons, List.not_mem_nil, or_false] at hk
  rcases hk with rfl | rfl | rfl | rfl | rfl | rfl | rfl | rfl | rfl | rfl | rfl
  case inr.inr.inr.inr.inr.inl | inr.inr.inr.inr.inr.inr.inr.inl => exact append_low _ v
  case inr.inr.inr.inr.inr.inr.inl | inr.inr.inr.inr.inr.inr.inr.inr.inl => exact append_high v _
  all_goals rfl

/-- The bits of a control register that are not reserved read as they are. -/
theorem readOpen_and (k : Nat) (mask keep : Word) (h : mask &&& keep = 0#16) : s.readOpen k mask v &&& keep = v &&& keep :=
  openBits_and mask v _ keep h

/-- The low bits of a word cut to a width. -/
theorem setWidth_and {n : Nat} (h : n ≤ 16) :
    (v.setWidth n).setWidth 16 &&& BitVec.ofNat 16 (2 ^ n - 1) = v &&& BitVec.ofNat 16 (2 ^ n - 1) := by
  rw [setWidth_setWidth_word v h, BitVec.and_assoc, BitVec.and_self]

/-- A bit put does not show where it is masked. -/
theorem putBit_and (k : Nat) (b : Bool) (keep : Word) (h : keep.getLsbD k = false) :
    putBit v k b &&& keep = v &&& keep := by
  apply BitVec.eq_of_getLsbD_eq
  intro j hj
  simp only [BitVec.getLsbD_and, getLsbD_putBit]
  by_cases hk : j = k
  · simp only [hk, h, Bool.and_false]
  · simp only [hk, false_and, if_false]

/-- IDMA Control keeps the address and, in bit 14, the memory. -/
theorem idmaCtl_word : putBit ((v.setWidth 14).setWidth 16) 14 (v.getLsbD 14) &&& 0x7FFF = v &&& 0x7FFF := by
  apply BitVec.eq_of_getLsbD_eq
  intro j hj
  simp only [BitVec.getLsbD_and, getLsbD_putBit, BitVec.getLsbD_setWidth]
  interval_cases j <;> simp

/-- The flag data: what was written where the pin is an output, the pin where it is an input. -/
theorem pfData_word (dir : Word) (pin : BitVec 8) : (openBits (dir.setWidth 8) pin (v.setWidth 8)).setWidth 16 =
    (dir &&& v ||| ~~~dir &&& pin.setWidth 16) &&& 0x00FF := by
  apply BitVec.eq_of_getLsbD_eq
  intro j hj
  have hm : (0x00FF : Word).getLsbD j = decide (j < 8) := by interval_cases j <;> rfl
  have hp : 8 ≤ j → pin.getLsbD j = false := fun h => BitVec.getLsbD_of_ge pin j h
  simp only [BitVec.getLsbD_and, BitVec.getLsbD_or, BitVec.getLsbD_not, getLsbD_openBits, BitVec.getLsbD_setWidth, hm, hj,
    decide_true, Bool.true_and]
  by_cases h8 : j < 8
  · simp only [h8, decide_true, Bool.true_and, Bool.and_true]
    cases dir.getLsbD j <;> simp
  · simp only [h8, hp (Nat.le_of_not_lt h8), decide_false, Bool.false_and, Bool.and_false, Bool.false_eq_true, if_false]

theorem idmaOvl_keeps (h : s.cfg.member.hasIdmaOvl = true) :
    (s.writeMmr 7 v).readMmr 7 &&& (if s.cfg.member.isMN then 0x40FF else 0x00FF) =
      v &&& (if s.cfg.member.isMN then 0x40FF else 0x00FF) ∧
    ((s.writeMmr 7 v).readMmr 7).getLsbD 15 = false := by
  have hw : s.writeMmr 7 v = { s with idma := (s.idma.latchOvl v).byCore } := if_pos h
  have hr : (s.writeMmr 7 v).readMmr 7 = State.readOpen { s with idma := (s.idma.latchOvl v).byCore } 7
      (if s.cfg.member.isMN then 0x3F00 else 0x7F00) (putBit (putBit v 15 false) 15 false) := by
    rw [hw]
    exact if_pos h
  rw [hr]
  cases s.cfg.member.isMN
  · refine ⟨?_, by simp only [State.readOpen, getLsbD_openBits, getLsbD_putBit]; rfl⟩
    exact (readOpen_and _ _ 7 _ _ rfl).trans ((putBit_and _ 15 false _ rfl).trans (putBit_and v 15 false _ rfl))
  · refine ⟨?_, by simp only [State.readOpen, getLsbD_openBits, getLsbD_putBit]; rfl⟩
    exact (readOpen_and _ _ 7 _ _ rfl).trans ((putBit_and _ 15 false _ rfl).trans (putBit_and v 15 false _ rfl))

/-- PDFORCE, bit 13, is open once it is written 1; the other bits are kept. -/
theorem auto1_keeps : (s.writeMmr 15 v).readMmr 15 &&& 0xDFFF = v &&& 0xDFFF ∧
    (v.getLsbD 13 = false → (s.writeMmr 15 v).readMmr 15 = v) := by
  have hr : (s.writeMmr 15 v).readMmr 15 =
      if v.getLsbD 13 then (s.writeMmr 15 v).readOpen 15 0x2000 v else v := rfl
  rw [hr]
  cases v.getLsbD 13
  · exact ⟨rfl, fun _ => rfl⟩
  · exact ⟨readOpen_and _ v 15 _ _ rfl, nofun⟩

end

/-- Settles O53: each register reads its own field, with the bits under its mask open, and a write leaves the other fields. -/
theorem controlRegisterReadBack : Obligations.ControlRegisterReadBack := by
  intro s v ovl mn keeps
  have addr (k : Nat) (a : Addr) (u : State) (hr : u.readMmr k = u.readOpen k 0xC000 (a.setWidth 16))
      (ha : a = v.setWidth 14) : u.readMmr k &&& 0x3FFF = v &&& 0x3FFF := by
    rw [hr, readOpen_and u _ k 0xC000 0x3FFF rfl, ha]
    exact setWidth_and v (n := 14) (by decide)
  have idmaMask : ∀ b : Bool, (if b then 0 else 0x00F0 : Word) &&& (if b then 0xFFFF else 0xFF0F) = 0#16 := by decide
  have mnMask : ∀ b : Bool, (if b then 0 else 0x8000 : Word) &&& (if b then 0xFFFF else 0x7FFF) = 0#16 := by decide
  have sysMask : ∀ b : Bool, (if b then 0xE3F0 else 0xE3F8 : Word) &&& (if b then 0x1C0F else 0x1C07) = 0#16 := by decide
  refine ⟨fun k hk => readMmr_writeMmr_whole s v hk, ?idma, fun ha => ⟨?biad, ?bead⟩, ?bdmaCtl, ⟨?bwcount, rfl⟩, ?pfData, ?pfCtl,
    idmaOvl_keeps s v, (auto1_keeps s v).1, (auto1_keeps s v).2, putBit_and v 15 _ _ rfl, ?fo, ?auto0, ?tscale, ?waitCtl,
    ?sysCtl, fun k j hj h5 ho => readMmr_writeMmr_other s v hj h5 ho⟩
  case idma => exact (readOpen_and _ _ 0 0x8000 0x7FFF rfl).trans (idmaCtl_word v)
  case biad => exact addr 1 _ _ rfl (congrArg (fun u : State => u.bdma.biad) (writeBdmaAddr_idle s _ _ ha))
  case bead => exact addr 2 _ _ rfl (congrArg (fun u : State => u.bdma.bead) (writeBdmaAddr_idle s _ _ ha))
  case bdmaCtl => exact readOpen_and _ v 3 _ _ (idmaMask ovl)
  case bwcount => exact setWidth_setWidth_word v (n := 14) (by decide)
  case pfData => exact pfData_word v s.ctl.pfCtl s.flags.pfIn
  case pfCtl => exact readOpen_and _ v 6 _ _ (mnMask mn)
  case fo => exact (getLsbD_putBit v 15 s.flags.fo 15).trans rfl
  case auto0 => exact readOpen_and _ v 19 0xA000 0x5FFF rfl
  case tscale => exact (readOpen_and _ _ 27 0xFF00 0x00FF rfl).trans (setWidth_and v (n := 8) (by decide))
  case waitCtl => exact readOpen_and _ v 30 _ _ (mnMask mn)
  case sysCtl => exact readOpen_and _ v 31 _ _ (sysMask s.cfg.member.hasBmsDisable)

end Sys2Proof.Machine
end

section
/-!
PROOFS. The data address generators: the next address and bit reversal (20_memory.md R120 to R122).
-/

namespace Sys2Proof.Machine

/-- The address a DAG puts out, bit by bit: DAG1's reversed in that mode. -/
theorem dagAddr_bit (s : State) (k : Fin 8) {b : Nat} (hb : b < 14) : (s.dagAddr k).getLsbD b =
    if s.bitRev && decide (k.val < 4) then s.dag.i[k].getLsbD (13 - b) else s.dag.i[k].getLsbD b := by
  unfold State.dagAddr
  split
  · exact bitrev14_bit _ b hb
  · rfl

/-- Settles O37: without a length the sum, inside the conditions the way round the buffer, and the reversed bits of DAG1. -/
theorem addressGenerators : Obligations.AddressGenerators := by
  refine fun free i m l => ⟨fun hl => if_pos hl, fun n hle hlt => ?_, fun s k b hb => dagAddr_bit s k hb⟩
  intro base hm hm' hi
  exact nextAddr_round free i m l n hle hlt hm hm' hi

end Sys2Proof.Machine
end

section
/-!
PROOFS. The priority chain at an instruction boundary: what the first request that applies makes of the step (20_memory.md R138,
R139).
-/

namespace Sys2Proof.Machine

/-! ### The costs -/

/-- A host read steals a cycle but for the second half of a Program Memory word. -/
theorem steals_read (d : Idma) : (d.steals .read).toNat = if d.toDm = false ∧ d.half = .secondRead then 0 else 1 := by
  unfold Idma.steals
  cases d.toDm <;> cases d.half <;> rfl

/-- A host write steals a cycle but for the first half of a Program Memory word. -/
theorem steals_write (d : Idma) (v : Word) : (d.steals (.write v)).toNat =
    if d.toDm = false ∧ d.half = .first then 0 else 1 := by
  unfold Idma.steals
  cases d.toDm <;> cases d.half <;> rfl

theorem autoCost_eq (s : State) : s.autoCost = 1 + if s.autoExtern then s.dwait else 0 := by
  unfold State.autoCost
  split <;> rfl

/-- An interrupt entry leaves the bus as it is. -/
theorem takeInterrupt_busTaken (s : State) (x : Source) : (s.takeInterrupt x).busTaken = s.busTaken := by
  rw [takeInterrupt_eq]
  rfl

/-- An idle core's cycle: PDFORCE is recognised in it, then it waits. -/
theorem idleCycle_eq (s : State) : s.idleCycle = State.waitCycle { s with
    irq := { s.irq with latchPwd := s.irq.latchPwd || s.lat.pdDue, pdForced := s.irq.pdForced || s.lat.pdDue }
    lat := { s.lat with pdDue := s.lat.pdNew, pdNew := false } } 1 := by
  unfold State.idleCycle
  rw [pdStep_eq]

/-- A waiting cycle takes the period of the core's clock, and leaves the core state, the powerdown request and the one-cycle
actions. -/
theorem waitCycle_keeps (s : State) : (s.waitCycle 1).clock = s.clock + s.period ∧ (s.waitCycle 1).core = s.core ∧
    (s.waitCycle 1).irq.latchPwd = s.irq.latchPwd ∧ (s.waitCycle 1).lat = s.lat := by
  obtain ⟨_, _, h, hp, -⟩ := timerStep_only s s.timerSync
  unfold State.waitCycle
  rw [deviceCycle_eq, h]
  exact ⟨congrArg (s.clock + ·) (Nat.one_mul _), rfl, hp, rfl⟩

/-! ### The chain -/

section
variable {s : State}

/-- Without an event, a bus halt or a stopped instruction, the step of a running or idle core is a boundary. -/
theorem step_boundary (he : s.env = []) (hc : s.core = .running ∨ ∃ n, s.core = .idle n) (hs : s.stalled = false)
    (hb : s.busHalts = false) : step s = s.boundary := by
  have ha : s.active = s.boundary := by simp [State.active, hs, hb]
  have ht : s.turn = s.active := by
    unfold State.turn
    obtain hc | ⟨n, hc⟩ := hc <;> rw [hc]
  unfold step
  rw [he]
  exact ht.trans ha

theorem boundary_idma {op : IdmaOp} (hi : s.idma.pend = some op) : s.boundary = s.idmaTurn op := by
  unfold State.boundary
  rw [hi]

variable (hi : s.idma.pend = none)
include hi

theorem boundary_bdma (hb : s.bdmaReady = true) : s.boundary = costing s.period s.bdmaWord := by
  unfold State.boundary
  rw [hi]
  exact if_pos hb

variable (hb : s.bdmaReady = false)
include hb

theorem boundary_autobuffer {t : State} (ha : s.autobuffer = some t) : s.boundary =
    if s.busTaken && s.autoExtern then .next (s.waitCycle 1) else .next (t.count (s.autoCost * s.period)) := by
  unfold State.boundary
  simp only [hi, hb, ha, Bool.false_eq_true, if_false]

variable (ha : s.autobuffer = none)
include ha

theorem boundary_core : s.boundary = s.coreStep := by
  unfold State.boundary
  simp only [hi, hb, ha, Bool.false_eq_true, if_false]

theorem boundary_interrupt {x : Source} (hx : s.interrupt = some x) : s.boundary = .next (s.enterInterrupt x) := by
  rw [boundary_core hi hb ha]
  unfold State.coreStep
  rw [hx]

theorem boundary_idle (hx : s.interrupt = none) {n : Nat} (hc : s.core = .idle n) : s.boundary = .next s.idleCycle := by
  rw [boundary_core hi hb ha]
  unfold State.coreStep
  rw [hx, hc]

end

/-- An interrupt entry with the cost of its fetch. -/
theorem enterInterrupt_cost (s : State) (x : Source) : s.enterInterrupt x =
    if (s.takeInterrupt x).fetchExtern && s.busTaken then (s.takeInterrupt x).count 1
    else State.count { s.takeInterrupt x with seq := { (s.takeInterrupt x).seq with
        prefetch := (s.takeInterrupt x).fetchAt (s.takeInterrupt x).st.pmovlay (s.takeInterrupt x).seq.pc } }
      (1 + if (s.takeInterrupt x).fetchExtern then s.pwait else 0) := by
  have hw : (s.takeInterrupt x).fetchExtern.toNat * s.pwait = if (s.takeInterrupt x).fetchExtern then s.pwait else 0 := by
    cases (s.takeInterrupt x).fetchExtern <;> simp
  unfold State.enterInterrupt
  dsimp only
  rw [hw, takeInterrupt_busTaken, Bool.and_comm]

/-- Settles O7: the boundary asks in the order of the chain, and each request that applies has its lemma above. -/
theorem boundaryPriority : Obligations.BoundaryPriority := by
  intro s he hc hst hbh
  rw [step_boundary he hc hst hbh]
  refine ⟨fun op hi => ?idma, fun hi hb => boundary_bdma hi hb, fun hi hb t ha => ?auto, fun hi hb ha x hx => ?entry,
    fun hi hb ha hx n hn => ?idle, fun n hn => ?slow, fun hr => ?fast⟩
  case idma =>
    rw [boundary_idma hi]
    cases op with
    | latch => rfl
    | read => exact congrArg (fun n => costing (n * s.period) _) (steals_read s.idma)
    | write v => exact congrArg (fun n => costing (n * s.period) _) (steals_write s.idma v)
  case auto => rw [boundary_autobuffer hi hb ha, autoCost_eq]
  case entry => rw [boundary_interrupt hi hb ha hx, enterInterrupt_cost]
  case idle =>
    intro t
    obtain ⟨hclock, hcore, hpwd, hlat⟩ := waitCycle_keeps t
    have hp : t.period = n := by simp [State.period, t, hn]
    refine ⟨?_, hp ▸ hclock, hcore.trans hn, hpwd, hlat⟩
    rw [boundary_idle hi hb ha hx hn, idleCycle_eq]
  case slow => simp [State.period, hn]
  case fast => simp [State.period, hr]

end Sys2Proof.Machine
end

section
/-!
PROOFS. Data Memory and Program Memory: the place of each word, that no two words share one, and that a store is read back
(20_memory.md R105 to R113).
-/

namespace Sys2Proof.Machine

/-! ### Words apart -/

section
variable (m : Memory) {a b : Nat}

theorem memGet16_memSet16_apart (w : Word) (h : a + 2 ≤ b ∨ b + 2 ≤ a) : memGet16 (memSet16 m a w) b = memGet16 m b := by
  unfold memGet16
  rw [memGet_memSet16_other _ _ (by omega), memGet_memSet16_other _ _ (by omega)]

theorem memGet24_memSet16_apart (w : Word) (h : a + 2 ≤ b ∨ b + 3 ≤ a) : memGet24 (memSet16 m a w) b = memGet24 m b := by
  unfold memGet24
  rw [memGet_memSet16_other _ _ (by omega), memGet_memSet16_other _ _ (by omega), memGet_memSet16_other _ _ (by omega)]

theorem memGet16_memSet24_apart (w : PmWord) (h : a + 3 ≤ b ∨ b + 2 ≤ a) : memGet16 (memSet24 m a w) b = memGet16 m b := by
  unfold memGet16
  rw [memGet_memSet24_other _ _ (by omega), memGet_memSet24_other _ _ (by omega)]

theorem memGet24_memSet24_apart (w : PmWord) (h : a + 3 ≤ b ∨ b + 3 ≤ a) : memGet24 (memSet24 m a w) b = memGet24 m b := by
  unfold memGet24
  rw [memGet_memSet24_other _ _ (by omega), memGet_memSet24_other _ _ (by omega), memGet_memSet24_other _ _ (by omega)]

end

/-! ### Pages -/

/-- The two external pages. -/
def isExtPage (p : BitVec 4) : Prop := p = 1 ∨ p = 2

theorem isExtPage_iff (p : BitVec 4) : isExtPage p ↔ p.toNat = 1 ∨ p.toNat = 2 := by
  unfold isExtPage
  rw [← BitVec.toNat_inj, ← BitVec.toNat_inj]
  rfl

/-- The bank of an internal Data Memory page lies between the fixed one and the external ones. -/
theorem dmPages_bank {m : Member} {p : Nat} (h : p ∈ m.dmPages) :
    (p = 0 ∧ dmBank p = 1) ∨ (4 ≤ p ∧ p ≤ 8 ∧ dmBank p = p - 2) := by
  have hp : p ∈ [0, 4, 5, 6, 7, 8] := by
    unfold Member.dmPages at h
    split at h <;> simp at h ⊢ <;> omega
  simp only [List.mem_cons, List.not_mem_nil, or_false] at hp
  rcases hp with rfl | rfl | rfl | rfl | rfl | rfl <;> decide

/-- The bank of an internal Program Memory page lies between the fixed one and the external ones. -/
theorem pmPages_bank {m : Member} {p : Nat} (h : p ∈ m.pmPages) :
    (p = 0 ∧ pmBank p = 1) ∨ (4 ≤ p ∧ p ≤ 7 ∧ pmBank p = p - 2) := by
  have hp : p ∈ [0, 4, 5, 6, 7] := by
    unfold Member.pmPages at h
    split at h <;> simp at h ⊢ <;> omega
  simp only [List.mem_cons, List.not_mem_nil, or_false] at hp
  rcases hp with rfl | rfl | rfl | rfl | rfl <;> decide

/-- The members with 4K words of Data Memory are those of one group. -/
theorem memClass_k4_iff (m : Member) : m.memClass = .k4 ↔ m.dmRam = 0x1000 := by
  unfold Member.dmRam
  cases m.memClass <;> decide

/-! ### Places of Data Memory -/

section
variable (s : State) {p : BitVec 4} {a : Addr} {l : Loc}

/-- From 0x2000 on Data Memory is fixed, and a member with 4K words has the upper half alone. -/
theorem dmLoc_fixed (p : BitVec 4) (h : 0x2000 ≤ a.toNat) : s.dmLoc p a =
    if s.cfg.member.memClass = .k4 ∧ a.toNat < 0x3000 then none
    else some { base := dmPlace 0 (a.toNat - 0x2000), ext := false } := if_pos h

theorem dmLoc_extern (h : a.toNat < 0x2000) (hp : isExtPage p) : s.dmLoc p a = some (s.dmExt p.toNat a.toNat) :=
  (if_neg (Nat.not_le_of_lt h)).trans (if_pos ((isExtPage_iff p).mp hp))

theorem dmLoc_overlay (h : a.toNat < 0x2000) (hp : ¬isExtPage p) : s.dmLoc p a =
    if p.toNat ∈ s.cfg.member.dmPages then some { base := dmPlace (dmBank p.toNat) a.toNat, ext := false } else none :=
  (if_neg (Nat.not_le_of_lt h)).trans (if_neg fun k => hp ((isExtPage_iff p).mpr k))

/-- The pages a member has below 0x2000. -/
theorem dmLoc_isSome (h : a.toNat < 0x2000) :
    (s.dmLoc p a).isSome = true ↔ isExtPage p ∨ p.toNat ∈ s.cfg.member.dmPages := by
  by_cases hp : isExtPage p
  · rw [dmLoc_extern s h hp]
    exact iff_of_true rfl (.inl hp)
  · rw [dmLoc_overlay s h hp, or_iff_right hp]
    simp

/-- The bank of Data Memory a page stands for below 0x2000. -/
def dmPageBank (p : Nat) : Nat := if p = 1 ∨ p = 2 then 6 + p else dmBank p

/-- The bank of Data Memory an address goes to outside Host Memory Mode. -/
def dmBankAt (p : BitVec 4) (a : Addr) : Nat := if 0x2000 ≤ a.toNat then 0 else dmPageBank p.toNat

/-- The place `l` of a word of Data Memory: on-chip or off, in which page, in which bank. -/
structure DmPlaced (s : State) (p : BitVec 4) (a : Addr) (l : Loc) : Prop where
  ext : l.ext = true ↔ a.toNat < 0x2000 ∧ isExtPage p
  page : a.toNat < 0x2000 → isExtPage p ∨ p.toNat ∈ s.cfg.member.dmPages
  base : s.hostMode = false → l.base = dmPlace (dmBankAt p a) (a.toNat % 0x2000)
  above : 0x40000 ≤ l.base

theorem dmPlace_above (bank off : Nat) : 0x40000 ≤ dmPlace bank off := by
  unfold dmPlace
  omega

theorem dmExt_base (hh : s.hostMode = false) (page off : Nat) : (s.dmExt page off).base = dmPlace (6 + page) off := by
  simp [State.dmExt, State.extOff, hh]

theorem dmLoc_placed (h : s.dmLoc p a = some l) : DmPlaced s p a l := by
  have hlt := a.isLt
  rcases Nat.lt_or_ge a.toNat 0x2000 with ha | ha
  · have hb : dmBankAt p a = dmPageBank p.toNat := if_neg (Nat.not_le_of_lt ha)
    by_cases hp : isExtPage p
    · rw [dmLoc_extern s ha hp] at h
      obtain rfl := Option.some.inj h
      refine ⟨iff_of_true rfl ⟨ha, hp⟩, fun _ => .inl hp, fun hh => ?_, dmPlace_above _ _⟩
      rw [dmExt_base s hh, hb, Nat.mod_eq_of_lt ha, dmPageBank, if_pos ((isExtPage_iff p).mp hp)]
    · rw [dmLoc_overlay s ha hp, Option.ite_none_right_eq_some] at h
      obtain ⟨hm, hl⟩ := h
      obtain rfl := Option.some.inj hl
      refine ⟨iff_of_false nofun fun k => hp k.2, fun _ => .inr hm, fun _ => ?_, dmPlace_above _ _⟩
      rw [hb, Nat.mod_eq_of_lt ha, dmPageBank, if_neg fun k => hp ((isExtPage_iff p).mpr k)]
  · rw [dmLoc_fixed s p ha, Option.ite_none_left_eq_some] at h
    obtain rfl := Option.some.inj h.2
    refine ⟨iff_of_false nofun fun k => Nat.not_le_of_lt k.1 ha, fun k => absurd ha (Nat.not_le_of_lt k), fun _ => ?_,
      dmPlace_above _ _⟩
    rw [dmBankAt, if_pos ha, show a.toNat % 0x2000 = a.toNat - 0x2000 by omega]

/-- Words of Data Memory in different banks, or at different places of one bank, lie apart. -/
theorem dmPlace_apart {k k' x x' : Nat} (hx : x < 0x2000) (hx' : x' < 0x2000) (h : k ≠ k' ∨ x ≠ x') :
    dmPlace k x + 2 ≤ dmPlace k' x' ∨ dmPlace k' x' + 2 ≤ dmPlace k x := by
  unfold dmPlace
  omega

/-- The bank of each page a member can have. -/
theorem dmPageBank_cases {m : Member} (h : isExtPage p ∨ p.toNat ∈ m.dmPages) :
    (p.toNat = 0 ∧ dmPageBank p.toNat = 1) ∨ (4 ≤ p.toNat ∧ p.toNat ≤ 8 ∧ dmPageBank p.toNat = p.toNat - 2) ∨
      ((p.toNat = 1 ∨ p.toNat = 2) ∧ dmPageBank p.toNat = 6 + p.toNat) := by
  by_cases hp : p.toNat = 1 ∨ p.toNat = 2
  · exact .inr (.inr ⟨hp, if_pos hp⟩)
  · have hd := dmPages_bank (h.resolve_left fun k => hp ((isExtPage_iff p).mp k))
    have hb : dmPageBank p.toNat = dmBank p.toNat := if_neg hp
    omega

/-- Outside Host Memory Mode two addresses, or two pages, of Data Memory never share a place. -/
theorem dmLoc_apart (hh : s.hostMode = false) {q : BitVec 4} {b : Addr} {k : Loc}
    (hne : a ≠ b ∨ a.toNat < 0x2000 ∧ p ≠ q) (hl : s.dmLoc p a = some l) (hk : s.dmLoc q b = some k) :
    l.base + 2 ≤ k.base ∨ k.base + 2 ≤ l.base := by
  have hp := dmLoc_placed s hl
  have hq := dmLoc_placed s hk
  rw [hp.base hh, hq.base hh]
  refine dmPlace_apart (Nat.mod_lt _ (by decide)) (Nat.mod_lt _ (by decide)) ?_
  have hpb (h : a.toNat < 0x2000) := dmPageBank_cases (hp.page h)
  have hqb (h : b.toNat < 0x2000) := dmPageBank_cases (hq.page h)
  rw [← BitVec.toNat_inj.ne, ← BitVec.toNat_inj.ne] at hne
  have ha := a.isLt
  have hb := b.isLt
  unfold dmBankAt
  split <;> split <;> omega

/-! ### Places of Program Memory -/

/-- Below 0x2000 Program Memory is on-chip, as far as the member has it. -/
theorem pmLoc_low (p : BitVec 4) (h : a.toNat < 0x2000) (hb : s.noBootMap = false) : s.pmLoc p a =
    if a.toNat < s.cfg.member.pmRam then some { base := pmPlace 0 a.toNat, ext := false } else none :=
  (if_pos h).trans (if_neg (by simp [hb]))

/-- In the no-boot map it is off-chip. -/
theorem pmLoc_noBoot (p : BitVec 4) (h : a.toNat < 0x2000) (hb : s.noBootMap = true) :
    s.pmLoc p a = some (s.pmExt 1 a.toNat) := (if_pos h).trans (if_pos hb)

theorem pmLoc_extern (h : 0x2000 ≤ a.toNat) (hp : isExtPage p) :
    s.pmLoc p a = some (s.pmExt p.toNat (a.toNat - 0x2000)) :=
  (if_neg (Nat.not_lt_of_le h)).trans (if_pos ((isExtPage_iff p).mp hp))

theorem pmLoc_overlay (h : 0x2000 ≤ a.toNat) (hp : ¬isExtPage p) : s.pmLoc p a =
    if p.toNat ∈ s.cfg.member.pmPages then some { base := pmPlace (pmBank p.toNat) (a.toNat - 0x2000), ext := false }
    else if s.noBootMap ∧ p.toNat = 0 ∧ a.toNat - 0x2000 < s.cfg.member.pmRam then
      some { base := pmPlace 0 (a.toNat - 0x2000), ext := false }
    else none :=
  (if_neg (Nat.not_lt_of_le h)).trans (if_neg fun k => hp ((isExtPage_iff p).mpr k))

/-- The pages a member has from 0x2000 on, in the normal map. -/
theorem pmLoc_isSome (h : 0x2000 ≤ a.toNat) (hb : s.noBootMap = false) :
    (s.pmLoc p a).isSome = true ↔ isExtPage p ∨ p.toNat ∈ s.cfg.member.pmPages := by
  by_cases hp : isExtPage p
  · rw [pmLoc_extern s h hp]
    exact iff_of_true rfl (.inl hp)
  · rw [pmLoc_overlay s h hp, or_iff_right hp]
    simp [hb]

/-- The bank of Program Memory a page stands for from 0x2000 on. -/
def pmPageBank (p : Nat) : Nat := if p = 1 ∨ p = 2 then 5 + p else pmBank p

/-- The bank of Program Memory an address goes to in the normal map, outside Host Memory Mode. -/
def pmBankAt (p : BitVec 4) (a : Addr) : Nat := if a.toNat < 0x2000 then 0 else pmPageBank p.toNat

/-- The place `l` of a word of Program Memory: on-chip or off, in which page, in which bank. -/
structure PmPlaced (s : State) (p : BitVec 4) (a : Addr) (l : Loc) : Prop where
  low : a.toNat < 0x2000 → l.ext = s.noBootMap
  ext : 0x2000 ≤ a.toNat → (l.ext = true ↔ isExtPage p)
  page : 0x2000 ≤ a.toNat → s.noBootMap = false → isExtPage p ∨ p.toNat ∈ s.cfg.member.pmPages
  base : s.hostMode = false → s.noBootMap = false → l.base = pmPlace (pmBankAt p a) (a.toNat % 0x2000)
  below : l.base + 3 ≤ 0x40000

theorem pmPlace_below {bank off : Nat} (hb : bank ≤ 7) (ho : off < 0x2000) : pmPlace bank off + 3 ≤ 0x40000 := by
  unfold pmPlace
  omega

theorem pmExt_base (hh : s.hostMode = false) (page off : Nat) : (s.pmExt page off).base = pmPlace (5 + page) off := by
  simp [State.pmExt, State.extOff, hh]

theorem pmExt_below {page off : Nat} (hp : page = 1 ∨ page = 2) (ho : off < 0x2000) :
    (s.pmExt page off).base + 3 ≤ 0x40000 := by
  have h : (s.pmExt page off).base = pmPlace (5 + (s.extOff page off).1) (s.extOff page off).2 := rfl
  rw [h]
  unfold State.extOff
  split
  · exact pmPlace_below (bank := 6) (by decide) (by dsimp only; omega)
  · exact pmPlace_below (by dsimp only; omega) ho

/-- The place of a word below 0x2000. -/
theorem pmLoc_placed_low (ha : a.toNat < 0x2000) (h : s.pmLoc p a = some l) : PmPlaced s p a l := by
  cases hb : s.noBootMap with
  | true =>
    rw [pmLoc_noBoot s p ha hb] at h
    obtain rfl := Option.some.inj h
    exact ⟨fun _ => hb.symm, fun k => absurd ha (Nat.not_lt_of_le k), fun _ k => absurd k (by simp [hb]),
      fun _ k => absurd k (by simp [hb]), pmExt_below s (.inl rfl) ha⟩
  | false =>
    rw [pmLoc_low s p ha hb, Option.ite_none_right_eq_some] at h
    obtain rfl := Option.some.inj h.2
    refine ⟨fun _ => hb.symm, fun k => absurd ha (Nat.not_lt_of_le k), fun k => absurd ha (Nat.not_lt_of_le k), fun _ _ => ?_,
      pmPlace_below (by decide) ha⟩
    rw [pmBankAt, if_pos ha, Nat.mod_eq_of_lt ha]

/-- The place of a word from 0x2000 on. -/
theorem pmLoc_placed_high (ha : 0x2000 ≤ a.toNat) (h : s.pmLoc p a = some l) : PmPlaced s p a l := by
  have hlt := a.isLt
  have hlo (k : a.toNat < 0x2000) : False := Nat.not_lt_of_le ha k
  have hb : pmBankAt p a = pmPageBank p.toNat := if_neg (Nat.not_lt_of_le ha)
  have hm : a.toNat % 0x2000 = a.toNat - 0x2000 := by omega
  have ho : a.toNat - 0x2000 < 0x2000 := by omega
  by_cases hp : isExtPage p
  · have hp' := (isExtPage_iff p).mp hp
    rw [pmLoc_extern s ha hp] at h
    obtain rfl := Option.some.inj h
    refine ⟨fun k => (hlo k).elim, fun _ => iff_of_true rfl hp, fun _ _ => .inl hp, fun hh _ => ?_, pmExt_below s hp' ho⟩
    rw [pmExt_base s hh, hb, hm, pmPageBank, if_pos hp']
  · have hk : pmPageBank p.toNat = pmBank p.toNat := if_neg fun k => hp ((isExtPage_iff p).mpr k)
    rw [pmLoc_overlay s ha hp] at h
    split at h
    next hmem =>
      obtain rfl := Option.some.inj h
      refine ⟨fun k => (hlo k).elim, fun _ => iff_of_false nofun hp, fun _ _ => .inr hmem, fun _ _ => by rw [hb, hm, hk], ?_⟩
      have := pmPages_bank hmem
      exact pmPlace_below (by omega) ho
    next =>
      rw [Option.ite_none_right_eq_some] at h
      obtain ⟨⟨hboot, -, -⟩, hl⟩ := h
      obtain rfl := Option.some.inj hl
      exact ⟨fun k => (hlo k).elim, fun _ => iff_of_false nofun hp, fun _ k => absurd k (by simp [hboot]),
        fun _ k => absurd k (by simp [hboot]), pmPlace_below (by decide) ho⟩

theorem pmLoc_placed (h : s.pmLoc p a = some l) : PmPlaced s p a l := by
  rcases Nat.lt_or_ge a.toNat 0x2000 with ha | ha
  · exact pmLoc_placed_low s ha h
  · exact pmLoc_placed_high s ha h

/-- Words of Program Memory in different banks, or at different places of one bank, lie apart. -/
theorem pmPlace_apart {k k' x x' : Nat} (hx : x < 0x2000) (hx' : x' < 0x2000) (h : k ≠ k' ∨ x ≠ x') :
    pmPlace k x + 3 ≤ pmPlace k' x' ∨ pmPlace k' x' + 3 ≤ pmPlace k x := by
  unfold pmPlace
  omega

/-- The bank of each page a member can have. -/
theorem pmPageBank_cases {m : Member} (h : isExtPage p ∨ p.toNat ∈ m.pmPages) :
    (p.toNat = 0 ∧ pmPageBank p.toNat = 1) ∨ (4 ≤ p.toNat ∧ p.toNat ≤ 7 ∧ pmPageBank p.toNat = p.toNat - 2) ∨
      ((p.toNat = 1 ∨ p.toNat = 2) ∧ pmPageBank p.toNat = 5 + p.toNat) := by
  by_cases hp : p.toNat = 1 ∨ p.toNat = 2
  · exact .inr (.inr ⟨hp, if_pos hp⟩)
  · have hd := pmPages_bank (h.resolve_left fun k => hp ((isExtPage_iff p).mp k))
    have hb : pmPageBank p.toNat = pmBank p.toNat := if_neg hp
    omega

/-- In the normal map and outside Host Memory Mode two addresses, or two pages, of Program Memory never share a place. -/
theorem pmLoc_apart (hh : s.hostMode = false) (hb : s.noBootMap = false) {q : BitVec 4} {b : Addr} {k : Loc}
    (hne : a ≠ b ∨ 0x2000 ≤ a.toNat ∧ p ≠ q) (hl : s.pmLoc p a = some l) (hk : s.pmLoc q b = some k) :
    l.base + 3 ≤ k.base ∨ k.base + 3 ≤ l.base := by
  have hp := pmLoc_placed s hl
  have hq := pmLoc_placed s hk
  rw [hp.base hh hb, hq.base hh hb]
  refine pmPlace_apart (Nat.mod_lt _ (by decide)) (Nat.mod_lt _ (by decide)) ?_
  have hpb (h : 0x2000 ≤ a.toNat) := pmPageBank_cases (hp.page h hb)
  have hqb (h : 0x2000 ≤ b.toNat) := pmPageBank_cases (hq.page h hb)
  rw [← BitVec.toNat_inj.ne, ← BitVec.toNat_inj.ne] at hne
  have ha := a.isLt
  have hb := b.isLt
  unfold pmBankAt
  split <;> split <;> omega

/-! ### Reads -/

theorem readDm_at (ha : a.toNat < 0x3FE0) (h : s.dmLoc s.st.dmovlay a = some l) : s.readDm a = memGet16 s.mem l.base := by
  unfold State.readDm State.readRam
  rw [if_neg (Nat.not_le_of_lt ha), h]

theorem writeDm_at (ha : a.toNat < 0x3FE0) (h : s.dmLoc s.st.dmovlay a = some l) (v : Word) :
    s.writeDm a v = { s with mem := memSet16 s.mem l.base v } := by
  unfold State.writeDm State.writeRam
  rw [if_neg (Nat.not_le_of_lt ha), h]

/-- The word at an on-chip place, or at an off-chip one outside Host Memory Mode, is all there. -/
theorem pmAt_whole (h : (l.ext && s.hostMode) = false) : s.pmAt l = memGet24 s.mem l.base :=
  if_neg (by simp [h])

theorem fetchAt_eq (h : s.pmLoc p a = some l) : s.fetchAt p a = some (s.pmAt l) := by
  unfold State.fetchAt
  rw [h]
  rfl

theorem readPm_at (h : s.pmLoc s.st.pmovlay a = some l) : s.readPm a = s.pmAt l := by
  unfold State.readPm
  rw [h]

theorem writePm_at (h : s.pmLoc s.st.pmovlay a = some l) (hx : (l.ext && s.hostMode) = false) (w : PmWord) :
    s.writePm a w = { s with mem := memSet24 s.mem l.base w } := by
  have hp : s.pmPut l w = memSet24 s.mem l.base w := if_neg (by simp [hx])
  unfold State.writePm
  rw [h]
  exact congrArg (fun m => { s with mem := m }) hp

/-- The map does not depend on what memory holds. -/
theorem dmLoc_withMem (m : Memory) (p : BitVec 4) (a : Addr) : State.dmLoc { s with mem := m } p a = s.dmLoc p a := rfl
theorem pmLoc_withMem (m : Memory) (p : BitVec 4) (a : Addr) : State.pmLoc { s with mem := m } p a = s.pmLoc p a := rfl

/-- A Data Memory word reads the same from two memories that agree on its bytes. -/
theorem readDm_withMem {m : Memory} (ha : a.toNat < 0x3FE0)
    (h : ∀ k, s.dmLoc s.st.dmovlay a = some k → memGet16 m k.base = memGet16 s.mem k.base) :
    State.readDm { s with mem := m } a = s.readDm a := by
  have hloc := dmLoc_withMem s m s.st.dmovlay a
  unfold State.readDm State.readRam
  rw [if_neg (Nat.not_le_of_lt ha), if_neg (Nat.not_le_of_lt ha), hloc]
  cases hl : s.dmLoc s.st.dmovlay a with
  | none => rfl
  | some k => exact h k hl

/-- A Program Memory word reads the same from two memories that agree on its bytes. -/
theorem readPm_withMem {m : Memory}
    (h : ∀ k, s.pmLoc s.st.pmovlay a = some k → memGet24 m k.base = memGet24 s.mem k.base) :
    State.readPm { s with mem := m } a = s.readPm a := by
  have hloc := pmLoc_withMem s m s.st.pmovlay a
  unfold State.readPm
  rw [hloc]
  cases hl : s.pmLoc s.st.pmovlay a with
  | none => rfl
  | some k =>
    have hm := h k hl
    have hat : State.pmAt { s with mem := m } k = s.pmAt k := by
      unfold State.pmAt
      dsimp only
      rw [hm]
      rfl
    exact hat

end

/-! ### Stores -/

section
variable {s : State} (hwf : Memory.wf s.mem = true) {a : Addr} {l : Loc}
include hwf

/-- A Data Memory word stored is read back. -/
theorem readDm_writeDm (ha : a.toNat < 0x3FE0) (h : s.dmLoc s.st.dmovlay a = some l) (v : Word) :
    (s.writeDm a v).readDm a = v := by
  rw [writeDm_at s ha h]
  have hloc := (dmLoc_withMem s (memSet16 s.mem l.base v) s.st.dmovlay a).trans h
  exact (readDm_at { s with mem := memSet16 s.mem l.base v } ha hloc).trans (memGet16_memSet16 hwf _ v)

/-- A Program Memory word stored is read back. -/
theorem pmAt_writePm (h : s.pmLoc s.st.pmovlay a = some l) (hx : (l.ext && s.hostMode) = false) (w : PmWord) :
    (s.writePm a w).pmAt l = w := by
  rw [writePm_at s h hx]
  exact (pmAt_whole { s with mem := memSet24 s.mem l.base w } hx).trans (memGet24_memSet24 hwf _ w)

end

section
variable {s : State} {a : Addr} {l : Loc}

/-- Outside Host Memory Mode a Data Memory store leaves the other words of Data Memory. -/
theorem readDm_writeDm_other (hh : s.hostMode = false) (ha : a.toNat < 0x3FE0) (h : s.dmLoc s.st.dmovlay a = some l) (v : Word)
    {b : Addr} (hne : b ≠ a) (hb : b.toNat < 0x3FE0) : (s.writeDm a v).readDm b = s.readDm b := by
  rw [writeDm_at s ha h]
  exact readDm_withMem s hb fun k hk => memGet16_memSet16_apart _ v (dmLoc_apart s hh (.inl hne.symm) h hk)

/-- A Data Memory store leaves Program Memory. -/
theorem readPm_writeDm (ha : a.toNat < 0x3FE0) (h : s.dmLoc s.st.dmovlay a = some l) (v : Word) (c : Addr) :
    (s.writeDm a v).readPm c = s.readPm c := by
  rw [writeDm_at s ha h]
  exact readPm_withMem s fun k hk =>
    memGet24_memSet16_apart _ v (.inr ((pmLoc_placed s hk).below.trans (dmLoc_placed s h).above))

/-- In the normal map and outside Host Memory Mode a Program Memory store leaves the other words of Program Memory. -/
theorem readPm_writePm_other (hh : s.hostMode = false) (hb : s.noBootMap = false) (h : s.pmLoc s.st.pmovlay a = some l)
    (w : PmWord) {b : Addr} (hne : b ≠ a) : (s.writePm a w).readPm b = s.readPm b := by
  rw [writePm_at s h (by simp [hh])]
  exact readPm_withMem s fun k hk => memGet24_memSet24_apart _ w (pmLoc_apart s hh hb (.inl hne.symm) h hk)

/-- A Program Memory store leaves Data Memory. -/
theorem readDm_writePm (h : s.pmLoc s.st.pmovlay a = some l) (hx : (l.ext && s.hostMode) = false) (w : PmWord) {c : Addr}
    (hc : c.toNat < 0x3FE0) : (s.writePm a w).readDm c = s.readDm c := by
  rw [writePm_at s h hx]
  exact readDm_withMem s hc fun k hk =>
    memGet16_memSet24_apart _ w (.inl ((pmLoc_placed s h).below.trans (dmLoc_placed s hk).above))

end

/-- Settles O8: a store changes the bytes of its place, which lies apart from every other; where an access goes is said by the
equations of `dmLoc`. -/
theorem dmStoreThenRead : Obligations.DmStoreThenRead := by
  refine ⟨fun s a v l hwf ha h => ⟨readDm_writeDm hwf ha h v, fun hh b hne hb => readDm_writeDm_other hh ha h v hne hb,
    readPm_writeDm ha h v⟩, fun s a v ha => ⟨if_pos ha, if_pos ha⟩, fun s p q a b ha hb => ⟨fun l hl => readDm_at s ha hl,
    fun hhi => ⟨?same, fun l hl => ?intern, ?fixedSome⟩,
    fun hlo => ⟨fun l hl => ?extern, (dmLoc_isSome s hlo).trans or_assoc⟩,
    fun hh hne l k hl hk => dmLoc_apart s hh hne hl hk⟩⟩
  case same => rw [dmLoc_fixed s p hhi, dmLoc_fixed s q hhi]
  case intern =>
    have hx := (dmLoc_placed s hl).ext
    simpa [Nat.not_lt_of_le hhi] using hx
  case fixedSome =>
    rw [dmLoc_fixed s p hhi, ← memClass_k4_iff]
    by_cases hk : s.cfg.member.memClass = .k4 <;> simp [hk]
  case extern => exact (dmLoc_placed s hl).ext.trans (and_iff_right hlo)

/-- Settles O9: a store changes the bytes of its place, which lies apart from every other; where an access goes is said by the
equations of `pmLoc`. -/
theorem pmStoreThenRead : Obligations.PmStoreThenRead := by
  refine ⟨fun s a w l hwf h hx => ⟨?read, ?fetch, fun hh hb b hne => readPm_writePm_other hh hb h w hne,
    fun c hc => readDm_writePm h hx w hc⟩, fun s p q a b => ⟨fun l hl => ⟨?fetchRead, fun hx => ?whole⟩,
    fun hlo => ⟨?same, fun l hl => (pmLoc_placed s hl).low hlo, ?lowSome⟩,
    fun hhi hb => ⟨fun l hl => (pmLoc_placed s hl).ext hhi, (pmLoc_isSome s hhi hb).trans or_assoc⟩,
    fun hh hb hne l k hl hk => pmLoc_apart s hh hb hne hl hk⟩⟩
  case read =>
    have hloc : (s.writePm a w).pmLoc (s.writePm a w).st.pmovlay a = some l := by rw [writePm_eq]; exact h
    rw [readPm_at _ hloc, pmAt_writePm hwf h hx]
  case fetch =>
    have hloc : (s.writePm a w).pmLoc s.st.pmovlay a = some l := by rw [writePm_eq]; exact h
    rw [fetchAt_eq _ hloc, pmAt_writePm hwf h hx]
  case fetchRead => rw [fetchAt_eq s hl, readPm_at s hl]
  case whole => rw [readPm_at s hl, pmAt_whole s hx]
  case same =>
    cases hb : s.noBootMap with
    | true => rw [pmLoc_noBoot s p hlo hb, pmLoc_noBoot s q hlo hb]
    | false => rw [pmLoc_low s p hlo hb, pmLoc_low s q hlo hb]
  case lowSome =>
    cases hb : s.noBootMap with
    | true => simp [pmLoc_noBoot s p hlo hb]
    | false => simp [pmLoc_low s p hlo hb]

end Sys2Proof.Machine
end

section
/-!
PROOFS. The parts of a multifunction word: the computation beside a move replaces the active bank and ASTAT alone, and the move
the DAG and PX registers and memory (46_multifunction.md R490).
-/

namespace Sys2Proof.Machine

/-! ### Computations -/

/-- `u` is `s` with another active bank and another ASTAT. -/
def Committed (s u : State) : Prop := u = s.commit u.bank u.st.astat

section
variable (s : State)

/-- The fields a commit leaves, all at once. -/
theorem commit_eq (b : Bank) (a : BitVec 8) : s.commit b a =
    { s with pri := (s.commit b a).pri, sec := (s.commit b a).sec, st := { s.st with astat := a } } := by
  unfold State.commit
  rw [setBank_eq]
  rfl

theorem commit_of_sec {s : State} (h : s.secReg = true) (b : Bank) (a : BitVec 8) :
    s.commit b a = { s with sec := b, st := { s.st with astat := a } } := by
  unfold State.commit State.setBank
  rw [if_pos h]
  rfl

theorem commit_of_pri {s : State} (h : ¬s.secReg = true) (b : Bank) (a : BitVec 8) :
    s.commit b a = { s with pri := b, st := { s.st with astat := a } } := by
  unfold State.commit State.setBank
  rw [if_neg h]
  rfl

theorem commit_committed (b : Bank) (a : BitVec 8) : Committed s (s.commit b a) := by
  unfold Committed
  rw [commit_bank, commit_st]

theorem committed_self : Committed s s := (commit_self s).symm

theorem setBank_committed (b : Bank) : Committed s (s.setBank b) := by
  rw [setBank_commit]
  exact commit_committed s _ _

theorem compute_committed (z : Dest) (cp : Comp) : Committed s (s.compute z cp) := by
  cases cp with
  | alu | mac => exact commit_committed s _ _

theorem shiftReg_committed (fn : ShiftFn) (x : ShXop) : Committed s (s.shiftReg fn x) := by
  cases fn with
  | lshiftHi | lshiftHiOr | lshiftLo | lshiftLoOr | ashiftHi | ashiftHiOr | ashiftLo | ashiftLoOr | normHi | normHiOr | normLo
  | normLoOr => exact setBank_committed s _
  | expHi => exact commit_committed s _ _
  | expHix =>
    simp only [State.shiftReg, State.shiftVal, State.expHix]
    split <;> exact commit_committed s _ _
  | expLo =>
    simp only [State.shiftReg, State.shiftVal, State.expLo]
    split
    · exact setBank_committed s _
    · exact committed_self s
  | expAdj =>
    simp only [State.shiftReg, State.shiftVal, State.expAdj]
    split
    · exact setBank_committed s _
    · exact committed_self s

/-! ### The load beside a computation -/

/-- A data register at any value leaves the others, but MR2 with MR1. -/
theorem dreg_openDreg_other (b : Bank) {d e : Dreg} (f : Word) (g : BitVec 8) (h : e ≠ d) (hm : d = .mr1 → e ≠ .mr2) :
    (b.openDreg d f g).dreg e = b.dreg e := by
  cases d with
  | mr1 => cases e <;> first | rfl | exact absurd rfl h | exact absurd rfl (hm rfl)
  | _ => exact dreg_setDreg_other b f h hm

theorem openDreg_rest (b : Bank) (d : Dreg) (f : Word) (g : BitVec 8) :
    (b.openDreg d f g).af = b.af ∧ (b.openDreg d f g).mf = b.mf ∧ (b.openDreg d f g).sb = b.sb := by
  cases d with
  | mr1 => exact ⟨rfl, rfl, rfl⟩
  | _ => exact setDreg_rest b _ f

/-- The move's load beside a computation, open where both write the register. -/
theorem loadBeside_loaded (clash : Bool) (d : Dreg) (v : Word) :
    ∃ b, s.loadBeside clash d v = s.setBank b ∧ Loaded s.bank b clash d v := by
  cases clash with
  | false => exact ⟨_, rfl, rfl⟩
  | true => exact ⟨_, rfl, fun e he hm => dreg_openDreg_other _ _ _ he hm, openDreg_rest _ _ _ _⟩

/-! ### A computation and a move -/

/-- All that a computation and a move beside it reach: the active bank, ASTAT, the DAG and PX registers and memory. -/
def State.moved (b : Bank) (a : BitVec 8) (g : Dag) (p : BitVec 8) (m : Memory) : State :=
  { s.commit b a with dag := g, px := p, mem := m }

variable (b : Bank) (a : BitVec 8) (g : Dag) (p : BitVec 8) (m : Memory)

theorem moved_bank : (s.moved b a g p m).bank = b := commit_bank s b a
theorem moved_st : (s.moved b a g p m).st = { s.st with astat := a } := commit_st s b a

theorem moved_flowEq : FlowEq (s.moved b a g p m) s :=
  have h := commit_flowEq s b a
  ⟨h.seq, h.use, h.free⟩

theorem moved_sameDevices : SameDevices s (s.moved b a g p m) := by
  unfold State.moved
  rw [commit_eq]
  constructor <;> rfl

/-- An instruction that reaches no more than that leaves the rest as a NOP does. -/
theorem moved_computeFrame : ComputeFrame s (s.advance (s.moved b a g p m)) := by
  have hlat : (s.moved b a g p m).lat = s.lat := by
    unfold State.moved
    rw [commit_eq]
  have hst := moved_st s b a g p m
  refine ⟨advance_sameDevices (moved_sameDevices s b a g p m), advance_sameFlow (moved_flowEq s b a g p m) hlat, ?_, ?_⟩
  · have h := commit_sameOtherBank s b a
    unfold SameOtherBank at *
    rw [advance_pri, advance_sec]
    exact h
  · rw [advance_st, hst]

theorem moved_setBank (b' : Bank) : (s.moved b a g p m).setBank b' = s.moved b' a g p m := by
  unfold State.moved
  by_cases h : s.secReg = true
  · rw [commit_of_sec h, commit_of_sec h]
    exact if_pos h
  · rw [commit_of_pri h, commit_of_pri h]
    exact if_neg h

/-- A Program Memory write sees the same map. -/
theorem moved_writePm (c : Addr) (w : PmWord) :
    (s.moved b a g p s.mem).writePm c w = s.moved b a g p (s.writePm c w).mem := by
  have hloc : (s.moved b a g p s.mem).pmLoc (s.moved b a g p s.mem).st.pmovlay c = s.pmLoc s.st.pmovlay c := by
    unfold State.moved
    rw [commit_eq]
    rfl
  have hput (l : Loc) : (s.moved b a g p s.mem).pmPut l w = s.pmPut l w := by
    unfold State.moved
    rw [commit_eq]
    rfl
  unfold State.writePm
  rw [hloc]
  cases s.pmLoc s.st.pmovlay c with
  | none => rfl
  | some l =>
    dsimp only
    rw [hput]
    rfl

/-- The post-modify reads the DAG registers and the free counter alone. -/
theorem commit_post (i k : BitVec 2) (h : Bool) :
    (s.commit b a).post h i k = s.moved b a (s.post h i k).dag s.px s.mem := by
  unfold State.moved
  rw [commit_eq]
  rfl

end

/-! ### Program Memory -/

/-- A Program Memory read beside a computation. -/
theorem pmReadTo_moved {s u : State} (hu : Committed s u) (clash : Bool) (d : Dreg) (i m : BitVec 2) :
    ∃ b, s.pmReadTo u clash d i m = s.moved b u.st.astat (s.post true i m).dag
        ((s.readPm (s.addr true i)).extractLsb' 0 8) s.mem ∧
      Loaded u.bank b clash d ((s.readPm (s.addr true i)).extractLsb' 8 16) := by
  have hp : (u.post true i m).setPx ((s.readPm (s.addr true i)).extractLsb' 0 8) =
      s.moved u.bank u.st.astat (s.post true i m).dag ((s.readPm (s.addr true i)).extractLsb' 0 8) s.mem := by
    rw [hu, commit_post, commit_bank, commit_st]
    rfl
  obtain ⟨b, hb, hl⟩ := loadBeside_loaded (s.moved u.bank u.st.astat (s.post true i m).dag
    ((s.readPm (s.addr true i)).extractLsb' 0 8) s.mem) clash d ((s.readPm (s.addr true i)).extractLsb' 8 16)
  rw [moved_bank] at hl
  refine ⟨b, ?_, hl⟩
  unfold State.pmReadTo
  dsimp only
  rw [hp, hb, moved_setBank]

/-- A Program Memory write beside a computation. -/
theorem pmWriteOf_moved {s u : State} (hu : Committed s u) (d : Dreg) (i m : BitVec 2) :
    s.pmWriteOf u d i m = s.moved u.bank u.st.astat (s.post true i m).dag s.px
      (s.writePm (s.addr true i) (s.bank.dreg d ++ s.px)).mem := by
  unfold State.pmWriteOf
  rw [hu, commit_post, commit_bank, commit_st, moved_writePm]
  rfl

/-- A word written in Program Memory: the bytes driven read as written and the others as before. -/
theorem writePm_stored {s : State} (h : Memory.wf s.mem = true) (a : Addr) (w : PmWord) {t : State}
    (hm : t.mem = (s.writePm a w).mem) (hl : t.lat = (s.advance s).lat) (hd : SameDevices s t) : StoredPm s t a w := by
  refine ⟨hl, hd, ?_⟩
  unfold State.writePm at hm
  cases hp : s.pmLoc s.st.pmovlay a with
  | none =>
    rw [hp] at hm
    exact fun c => by rw [hm]
  | some l =>
    rw [hp] at hm
    replace hm : t.mem = s.pmPut l w := hm
    unfold State.pmPut at hm
    dsimp only
    split at hm
    next hx =>
      rw [if_pos hx, hm]
      refine ⟨memGet16_memSet16 h _ _, fun c hc => ?_⟩
      rw [hm, memGet_memSet16_other _ _ (by omega)]
    next hx =>
      rw [if_neg hx, hm]
      refine ⟨memGet24_memSet24 h _ _, fun c hc => ?_⟩
      rw [hm, memGet_memSet24_other _ _ (by omega)]

section
variable {j : Instr} {s u : State}

/-- An instruction that reads Program Memory beside a computation that gave `u`. -/
theorem completes_pmReadTo (hu : Committed s u) {clash : Bool} {d : Dreg} {i m : BitVec 2}
    (hj : exec j s = s.done (s.pmReadTo u clash d i m)) :
    Completes j s (fun t => ComputeFrame s t ∧ SameMem s t ∧ t.px = (s.readPm (s.addr true i)).extractLsb' 0 8 ∧
      t.dag = (s.post true i m).dag ∧ t.st.astat = u.st.astat ∧
      Loaded u.bank t.bank clash d ((s.readPm (s.addr true i)).extractLsb' 8 16)) := by
  obtain ⟨b, hb, hl⟩ := pmReadTo_moved hu clash d i m
  rw [hb] at hj
  refine ⟨_, hj, moved_computeFrame s _ _ _ _ _, fun c => ?_, ?_, ?_, ?_, ?_⟩
  · rw [advance_mem]
    rfl
  · rw [advance_px]
    rfl
  · rw [advance_dag]
    rfl
  · rw [advance_st, moved_st]
  · rwa [advance_bank, moved_bank]

/-- An instruction that writes Program Memory beside a computation that gave `u`. -/
theorem completes_pmWriteOf (hm : Memory.wf s.mem = true) (hu : Committed s u) {d : Dreg} {i m : BitVec 2}
    (hj : exec j s = s.done (s.pmWriteOf u d i m)) :
    Completes j s (fun t => StoreFrame s t ∧ t.bank = u.bank ∧ t.st.astat = u.st.astat ∧
      t.dag = (s.post true i m).dag ∧ StoredPm s t (s.addr true i) (s.bank.dreg d ++ s.px)) := by
  rw [pmWriteOf_moved hu] at hj
  have hf := moved_computeFrame s u.bank u.st.astat (s.post true i m).dag s.px
    (s.writePm (s.addr true i) (s.bank.dreg d ++ s.px)).mem
  refine ⟨_, hj, ⟨hf.flow.seq, by rw [hf.flow.lat], hf.other, hf.status, ?_⟩, ?_, ?_, ?_,
    writePm_stored hm _ _ ?_ hf.flow.lat hf.devices⟩
  · rw [advance_px]
    rfl
  · rw [advance_bank, moved_bank]
  · rw [advance_st, moved_st]
  · rw [advance_dag]
    rfl
  · rw [advance_mem]
    rfl

end

/-- Settles O28: the read alone is the read beside a computation that leaves the state as it is. -/
theorem loadsFromPm : Obligations.LoadsFromPm := fun z cp fn x _ _ _ s =>
  ⟨completes_pmReadTo (committed_self s) rfl, completes_pmReadTo (compute_committed s z cp) rfl,
    completes_pmReadTo (shiftReg_committed s fn x) rfl⟩

/-- Settles O31: the write alone is the write beside a computation that leaves the state as it is. -/
theorem storesToPm : Obligations.StoresToPm := fun z cp fn x _ _ _ s hm =>
  ⟨completes_pmWriteOf hm (committed_self s) rfl, completes_pmWriteOf hm (compute_committed s z cp) rfl,
    completes_pmWriteOf hm (shiftReg_committed s fn x) rfl⟩

end Sys2Proof.Machine
end

section
/-!
PROOFS. Which instructions reach memory, devices and control registers: each effect an instruction is made of stays within one of
the three, or within none (20_memory.md R125).
-/

namespace Sys2Proof.Machine

/-! ### What an effect stays within -/

/-- From `s` to `t` memory changes only where `m` allows it, a device, a pin or the core state only where `d` does, and a status
register other than ASTAT only where `c` does. -/
structure Within (m d c : Bool) (s t : State) : Prop where
  mem : m = false → t.mem = s.mem
  devices : d = false → SameDevices s t
  status : c = false → t.st = { s.st with astat := t.st.astat }

/-- An answer that is a next state stays within what is allowed. -/
def AnswersWithin (m d c : Bool) (s : State) (r : Result) : Prop := ∀ t, r = .next t → Within m d c s t

theorem SameDevices.refl (s : State) : SameDevices s s := by constructor <;> rfl

theorem SameDevices.trans {s t u : State} (h : SameDevices s t) (k : SameDevices t u) : SameDevices s u where
  cfg := k.cfg.trans h.cfg
  irq := k.irq.trans h.irq
  timer := k.timer.trans h.timer
  ctl := k.ctl.trans h.ctl
  sp0 := k.sp0.trans h.sp0
  sp1 := k.sp1.trans h.sp1
  mc := k.mc.trans h.mc
  bdma := k.bdma.trans h.bdma
  idma := k.idma.trans h.idma
  flags := k.flags.trans h.flags
  core := k.core.trans h.core
  pins := k.pins.trans h.pins
  br := k.br.trans h.br
  bg := k.bg.trans h.bg
  stalled := k.stalled.trans h.stalled
  held := k.held.trans h.held
  amid := k.amid.trans h.amid
  io := k.io.trans h.io
  env := k.env.trans h.env
  freeCtr := k.freeCtr.trans h.freeCtr
  clock := k.clock.trans h.clock

section
variable {m d c : Bool} {s t u : State}

theorem Within.refl : Within m d c s s := ⟨fun _ => rfl, fun _ => SameDevices.refl s, fun _ => rfl⟩

theorem Within.trans (h : Within m d c s t) (k : Within m d c t u) : Within m d c s u := by
  refine ⟨fun hm => (k.mem hm).trans (h.mem hm), fun hd => (h.devices hd).trans (k.devices hd), fun hc => ?_⟩
  rw [k.status hc, h.status hc]

theorem ite_within {p : Prop} [Decidable p] (ht : Within m d c s t) (hu : Within m d c s u) :
    Within m d c s (if p then t else u) := by
  split
  · exact ht
  · exact hu

/-! ### Effects within none of the three -/

theorem onlyFlow_within (h : OnlyFlow s t) : Within m d c s t := by
  unfold OnlyFlow at h
  rw [h]
  exact ⟨fun _ => rfl, fun _ => by constructor <;> rfl, fun _ => rfl⟩

theorem committed_within (h : Committed s t) : Within m d c s t := by
  rw [h]
  exact ⟨fun _ => commit_mem s _ _, fun _ => commit_sameDevices s _ _, fun _ => commit_st s _ _⟩

variable (s)

theorem commit_within (b : Bank) (a : BitVec 8) : Within m d c s (s.commit b a) := committed_within (commit_committed s b a)

theorem setBank_within (b : Bank) : Within m d c s (s.setBank b) := committed_within (setBank_committed s b)

theorem setAstat_within (a : BitVec 8) : Within m d c s (s.setAstat a) :=
  ⟨fun _ => rfl, fun _ => by constructor <;> rfl, fun _ => rfl⟩

theorem setPx_within (v : BitVec 8) : Within m d c s (s.setPx v) :=
  ⟨fun _ => rfl, fun _ => by constructor <;> rfl, fun _ => rfl⟩

theorem post_within (g : Bool) (i k : BitVec 2) : Within m d c s (s.post g i k) :=
  ⟨fun _ => rfl, fun _ => by constructor <;> rfl, fun _ => rfl⟩

theorem lat_within (l : Lat) : Within m d c s { s with lat := l } :=
  ⟨fun _ => rfl, fun _ => by constructor <;> rfl, fun _ => rfl⟩

theorem loadBeside_within (clash : Bool) (r : Dreg) (v : Word) : Within m d c s (s.loadBeside clash r v) := by
  obtain ⟨b, hb, -⟩ := loadBeside_loaded s clash r v
  rw [hb]
  exact setBank_within s b

theorem divq_within (x : Word) : Within m d c s (if s.inLoop then s.divqOpen else s.divqStep x) :=
  ite_within (commit_within s _ _) (commit_within s _ _)

theorem popCntr_within : Within m d c s s.popCntr :=
  onlyFlow_within ((setCntStk_onlyFlow _ _).trans (setCntr_onlyFlow _ _ _))

/-! ### Loads of a register -/

/-- A load reaches a device where the register is a serial port's, and control where it is a control register. -/
theorem load_within (r : Reg) (v : Word) : Within m (isSerial r) (isControl r) s (s.load r v) := by
  cases r with
  | d | sb => exact setBank_within s _
  | astat => exact setAstat_within s _
  | px => exact setPx_within s _
  | ifc => exact lat_within s _
  | sstat => exact Within.refl
  | owrcntr => exact onlyFlow_within (setCntr_onlyFlow s _ _)
  | cntr =>
    rw [load_cntr_eq]
    exact onlyFlow_within rfl
  | i | m | l => exact ⟨fun _ => rfl, fun _ => by constructor <;> rfl, fun _ => rfl⟩
  | pmovlay | dmovlay | mstat | imask | icntl => exact ⟨fun _ => rfl, fun _ => by constructor <;> rfl, nofun⟩
  | rx0 | tx0 | rx1 | tx1 => exact ⟨fun _ => load_mem s _ v, nofun, fun _ => rfl⟩

/-! ### Writes of memory -/

theorem writePm_within (a : Addr) (w : PmWord) : Within true d c s (s.writePm a w) := by
  rw [writePm_eq]
  exact ⟨nofun, fun _ => by constructor <;> rfl, fun _ => rfl⟩

theorem writeDm_within (a : Addr) (v : Word) : Within true true c s (s.writeDm a v) := by
  refine ⟨nofun, nofun, fun _ => ?_⟩
  rw [writeDm_st]

/-! ### The ends of an instruction -/

variable {s}

theorem next_within (h : Within m d c s t) : AnswersWithin m d c s (.next t) := by
  rintro _ ⟨⟩
  exact h

theorem refused_within (e : Refusal) : AnswersWithin m d c s (.refused e) := by
  rintro _ ⟨⟩

theorem done_within (h : Within m d c s t) : AnswersWithin m d c s (s.done t) :=
  next_within (h.trans (onlyFlow_within (advance_onlyFlow s t)))

theorem doneIf_within (h : Within m d c s t) (k : Cond) : AnswersWithin m d c s (s.doneIf k t) :=
  done_within (ite_within h Within.refl)

theorem ite_answersWithin {p : Prop} [Decidable p] {r q : Result} (hr : AnswersWithin m d c s r)
    (hq : AnswersWithin m d c s q) : AnswersWithin m d c s (if p then r else q) := by
  split
  · exact hr
  · exact hq

/-! ### A computation and a move -/

theorem dmReadTo_within (h : Within m d c s t) (clash g : Bool) (r : Dreg) (i k : BitVec 2) :
    AnswersWithin m d c s (s.done (s.dmReadTo t clash g r i k)) :=
  done_within ((h.trans (post_within t g i k)).trans (loadBeside_within _ clash r _))

theorem pmReadTo_within (h : Within m d c s t) (clash : Bool) (r : Dreg) (i k : BitVec 2) :
    AnswersWithin m d c s (s.done (s.pmReadTo t clash r i k)) :=
  done_within (((h.trans (post_within t true i k)).trans (setPx_within _ _)).trans (loadBeside_within _ clash r _))

theorem dualTo_within (h : Within m d c s t) (pd : PmDst) (dd : DmDst) (pi pm di dm : BitVec 2) :
    AnswersWithin m d c s (s.done (s.dualTo t pd dd pi pm di dm)) := by
  have hp := (h.trans (post_within t false di dm)).trans (post_within _ true pi pm)
  have hl (v w : Word) : Within m d c s
      ((((t.post false di dm).post true pi pm).loadDreg (ddReg dd) v).loadDreg (pdReg pd) w) :=
    (hp.trans (setBank_within _ _)).trans (setBank_within _ _)
  exact done_within (ite_within ((hl _ _).trans (setPx_within _ _)) (hl _ _))

theorem dmWriteOf_within (h : Within true true c s t) (g : Bool) (v : Word) (i k : BitVec 2) :
    AnswersWithin true true c s (s.done (s.dmWriteOf t g v i k)) :=
  done_within ((h.trans (post_within t g i k)).trans (writeDm_within _ _ v))

theorem pmWriteOf_within (h : Within true d c s t) (r : Dreg) (i k : BitVec 2) :
    AnswersWithin true d c s (s.done (s.pmWriteOf t r i k)) :=
  done_within ((h.trans (post_within t true i k)).trans (writePm_within _ _ _))

/-! ### Program flow -/

theorem countCeJump_onlyFlow (s : State) : OnlyFlow s s.countCeJump :=
  have h := countCe_onlyFlow s
  OnlyFlow.trans h rfl

theorem jumpTested_onlyFlow (s : State) (k : Cond) : OnlyFlow s (s.jumpTested k) := by
  unfold State.jumpTested
  split
  · exact countCeJump_onlyFlow s
  · rfl

theorem callTested_onlyFlow (s : State) (k : Cond) : OnlyFlow s (s.callTested k) := by
  unfold State.callTested
  split
  · exact jumpTested_onlyFlow s k
  · rfl

theorem jumpTo_within (k : Cond) (a : Addr) : AnswersWithin m d c s (s.jumpTo k a) :=
  have h := jumpTested_onlyFlow s k
  ite_answersWithin (next_within (onlyFlow_within (h.trans (setPc_onlyFlow _ a)))) (done_within (onlyFlow_within h))

theorem callTo_within (k : Cond) (a : Addr) : AnswersWithin m d c s (s.callTo k a) :=
  have h := callTested_onlyFlow s k
  ite_answersWithin (next_within (onlyFlow_within ((h.trans (setPcStk_onlyFlow _ _)).trans (setPc_onlyFlow _ a))))
    (done_within (onlyFlow_within h))

theorem doUntil_within (a : Addr) (k : Term) : AnswersWithin m d c s (execDoUntil a k s) :=
  ite_answersWithin (done_within (onlyFlow_within rfl))
    (done_within (onlyFlow_within ((setLoopStk_onlyFlow _ _).trans (setPcStk_onlyFlow _ _))))

theorem idleWith_within (n : Nat) : AnswersWithin m true c s (s.idleWith n) :=
  have h (k : CoreState) : Within m true c s { s.setPc s.nextPc with core := k } := ⟨fun _ => rfl, nofun, fun _ => rfl⟩
  ite_answersWithin (ite_answersWithin (refused_within _) (next_within (h _))) (next_within (h _))

theorem returnInterrupt_within : Within m true true s s.returnInterrupt := by
  rw [returnInterrupt_eq]
  exact ⟨fun _ => rfl, nofun, nofun⟩

theorem stsOp_within (op : StsOp) : Within m d true s (s.stsOp op) := by
  cases op with
  | keep0 | keep1 => exact Within.refl
  | push | pop => exact ⟨fun _ => rfl, fun _ => by constructor <;> rfl, nofun⟩

theorem stackControl_within (iq pp lp cp : Bool) (op : StsOp) :
    AnswersWithin m d true s (execStackControl iq pp lp cp op s) := by
  have h1 := stsOp_within (m := m) (d := d) (s := s) op
  have h2 := ite_within (p := cp = true) (h1.trans (popCntr_within _)) h1
  have h3 := ite_within (p := pp = true) (h2.trans (onlyFlow_within (t := State.discardPc _) rfl)) h2
  exact done_within (ite_within (h3.trans (onlyFlow_within (setLoopStk_onlyFlow _ _))) h3)

end

/-- Every instruction stays within what `storesMemory`, `reachesDevices` and `writesControl` say of it. -/
theorem exec_within (i : Instr) (s : State) :
    AnswersWithin (storesMemory i) (reachesDevices i) (writesControl i) s (exec i s) := by
  cases i with
  | aluPassZero | aluPassY | aluPassOne | aluIncY | aluXAddC | aluAddC | aluPassX | aluAdd | aluNotZero | aluNotY
  | aluNegY | aluXSubBorrow | aluSubBorrow | aluSub | aluPassNegOne | aluDecY | aluNegX | aluRsub | aluNegXBorrow
  | aluRsubBorrow | aluNotX | aluAnd | aluOr | aluXor | aluAbs => exact doneIf_within (commit_within s _ _) _
  | aluPassConst | aluPassConstInc | aluPassConstDec | aluAddConstC | aluAddConst | aluSubConstBorrow | aluSubConst
  | aluRsubConst | aluRsubConstBorrow | aluAndConst | aluOrConst | aluXorConst | aluNotConst | aluNegConst =>
    exact doneIf_within (commit_within s _ _) _
  | macSqRnd | macAddSqRnd | macSubSqRnd | macSqSS | macSqUU | macAddSqSS | macAddSqUU | macSubSqSS | macSubSqUU
  | macMulRnd | macRnd | macAddRnd | macSubRnd | macZero | macMulSS | macMulSU | macMulUS | macMulUU | macCopy | macAddSS
  | macAddSU | macAddUS | macAddUU | macSubSS | macSubSU | macSubUS | macSubUU => exact doneIf_within (commit_within s _ _) _
  | condNop => exact doneIf_within Within.refl _
  | lshiftHi | lshiftHiOr | lshiftLo | lshiftLoOr | ashiftHi | ashiftHiOr | ashiftLo | ashiftLoOr | normHi | normHiOr
  | normLo | normLoOr | expHi | expHix | expLo | expAdj =>
    exact doneIf_within (committed_within (shiftReg_committed s _ _)) _
  | lshiftImmHi | lshiftImmHiOr | lshiftImmLo | lshiftImmLoOr | ashiftImmHi | ashiftImmHiOr | ashiftImmLo | ashiftImmLoOr =>
    exact done_within (setBank_within s _)
  | satMr => exact doneIf_within (setBank_within s _) _
  | aluNone => exact done_within (setAstat_within s _)
  | divs => exact done_within (commit_within s _ _)
  | divq => exact done_within (divq_within s _)
  | moveDreg | loadDregImm | ioRead => exact done_within (setBank_within s _)
  | aluMove | macMove => exact done_within ((commit_within s _ _).trans (loadBeside_within _ _ _ _))
  | shiftMove => exact done_within ((committed_within (shiftReg_committed s _ _)).trans (loadBeside_within _ _ _ _))
  | loadDm => exact dmReadTo_within Within.refl _ _ _ _ _
  | compLoadDm => exact dmReadTo_within (committed_within (compute_committed s _ _)) _ _ _ _ _
  | shiftLoadDm => exact dmReadTo_within (committed_within (shiftReg_committed s _ _)) _ _ _ _ _
  | loadPm => exact pmReadTo_within Within.refl _ _ _ _
  | compLoadPm => exact pmReadTo_within (committed_within (compute_committed s _ _)) _ _ _ _
  | shiftLoadPm => exact pmReadTo_within (committed_within (shiftReg_committed s _ _)) _ _ _ _
  | dualRead => exact dualTo_within Within.refl _ _ _ _ _ _
  | compDualRead => exact dualTo_within (committed_within (compute_committed s _ _)) _ _ _ _ _ _
  | storeDm | storeDmImm => exact dmWriteOf_within Within.refl _ _ _ _
  | compStoreDm => exact dmWriteOf_within (committed_within (compute_committed s _ _)) _ _ _ _
  | shiftStoreDm => exact dmWriteOf_within (committed_within (shiftReg_committed s _ _)) _ _ _ _
  | storePm => exact pmWriteOf_within Within.refl _ _ _
  | compStorePm => exact pmWriteOf_within (committed_within (compute_committed s _ _)) _ _ _
  | shiftStorePm => exact pmWriteOf_within (committed_within (shiftReg_committed s _ _)) _ _ _
  | storeReg => exact done_within (writeDm_within s _ _)
  | loadReg | loadRegImm | moveReg => exact done_within (load_within s _ _)
  | popTop => exact done_within ((load_within s _ _).trans (lat_within _ _))
  | pushTop => exact done_within ((onlyFlow_within (setPcStk_onlyFlow s _)).trans (lat_within _ _))
  | modify g i m => exact done_within (post_within s g i m)
  | nop => exact done_within Within.refl
  | jump | jumpInd => exact jumpTo_within _ _
  | call | callInd => exact callTo_within _ _
  | jumpFlagIn => exact ite_answersWithin (next_within (onlyFlow_within (setPc_onlyFlow s _))) (done_within Within.refl)
  | callFlagIn =>
    exact ite_answersWithin (next_within (onlyFlow_within ((setPcStk_onlyFlow s _).trans (setPc_onlyFlow _ _))))
      (done_within Within.refl)
  | doUntil => exact doUntil_within _ _
  | rts => exact ite_answersWithin (next_within (onlyFlow_within rfl)) (done_within Within.refl)
  | rti => exact ite_answersWithin (next_within returnInterrupt_within) (done_within Within.refl)
  | idle | idleSlow => exact idleWith_within _
  | stackControl iq => exact stackControl_within iq _ _ _ _
  | loadPmovlay | loadDmovlay | modeControl | enaInts | disInts =>
    exact done_within ⟨fun _ => rfl, fun _ => by constructor <;> rfl, nofun⟩
  | flagOut =>
    refine doneIf_within ?_ _
    exact ⟨fun _ => rfl, nofun, fun _ => rfl⟩
  | ioWrite => exact done_within ⟨fun _ => rfl, nofun, fun _ => rfl⟩
  | type22 => exact refused_within _

/-- Settles O12: every instruction stays within what the three tables say of it. -/
theorem onlyTheseReach : Obligations.OnlyTheseReach := by
  intro i s t ht
  have h := exec_within i s t ht
  exact ⟨fun hm a => by rw [h.mem hm], h.devices, h.status⟩

end Sys2Proof.Machine
end

section
/-!
PROOFS. Decoding the word of a well-formed instruction gives it back (30_encoding.md R163 to R192).
-/

namespace Sys2Proof

/-- The round trip of every instruction, by its law. -/
theorem roundTrip (i : Instr) : Laws.RoundTrip.Statement i := by
  cases i with
  | aluPassZero z x c => exact Laws.RoundTrip.aluPassZero z x c
  | aluPassY z y x c => exact Laws.RoundTrip.aluPassY z y x c
  | aluPassOne z x c => exact Laws.RoundTrip.aluPassOne z x c
  | aluIncY z y x c => exact Laws.RoundTrip.aluIncY z y x c
  | aluXAddC z x c => exact Laws.RoundTrip.aluXAddC z x c
  | aluAddC z y x c => exact Laws.RoundTrip.aluAddC z y x c
  | aluPassX z x c => exact Laws.RoundTrip.aluPassX z x c
  | aluAdd z y x c => exact Laws.RoundTrip.aluAdd z y x c
  | aluNotZero z x c => exact Laws.RoundTrip.aluNotZero z x c
  | aluNotY z y x c => exact Laws.RoundTrip.aluNotY z y x c
  | aluNegY z y x c => exact Laws.RoundTrip.aluNegY z y x c
  | aluXSubBorrow z x c => exact Laws.RoundTrip.aluXSubBorrow z x c
  | aluSubBorrow z y x c => exact Laws.RoundTrip.aluSubBorrow z y x c
  | aluSub z y x c => exact Laws.RoundTrip.aluSub z y x c
  | aluPassNegOne z x c => exact Laws.RoundTrip.aluPassNegOne z x c
  | aluDecY z y x c => exact Laws.RoundTrip.aluDecY z y x c
  | aluNegX z x c => exact Laws.RoundTrip.aluNegX z x c
  | aluRsub z y x c => exact Laws.RoundTrip.aluRsub z y x c
  | aluNegXBorrow z x c => exact Laws.RoundTrip.aluNegXBorrow z x c
  | aluRsubBorrow z y x c => exact Laws.RoundTrip.aluRsubBorrow z y x c
  | aluNotX z y x c => exact Laws.RoundTrip.aluNotX z y x c
  | aluAnd z y x c => exact Laws.RoundTrip.aluAnd z y x c
  | aluOr z y x c => exact Laws.RoundTrip.aluOr z y x c
  | aluXor z y x c => exact Laws.RoundTrip.aluXor z y x c
  | aluAbs z y x c => exact Laws.RoundTrip.aluAbs z y x c
  | aluPassConst z k x c => exact Laws.RoundTrip.aluPassConst z k x c
  | aluPassConstInc z k x c => exact Laws.RoundTrip.aluPassConstInc z k x c
  | aluPassConstDec z k x c => exact Laws.RoundTrip.aluPassConstDec z k x c
  | aluAddConstC z k x c => exact Laws.RoundTrip.aluAddConstC z k x c
  | aluAddConst z k x c => exact Laws.RoundTrip.aluAddConst z k x c
  | aluSubConstBorrow z k x c => exact Laws.RoundTrip.aluSubConstBorrow z k x c
  | aluSubConst z k x c => exact Laws.RoundTrip.aluSubConst z k x c
  | aluRsubConst z k x c => exact Laws.RoundTrip.aluRsubConst z k x c
  | aluRsubConstBorrow z k x c => exact Laws.RoundTrip.aluRsubConstBorrow z k x c
  | aluAndConst z k x c => exact Laws.RoundTrip.aluAndConst z k x c
  | aluOrConst z k x c => exact Laws.RoundTrip.aluOrConst z k x c
  | aluXorConst z k x c => exact Laws.RoundTrip.aluXorConst z k x c
  | aluNotConst z k x c => exact Laws.RoundTrip.aluNotConst z k x c
  | aluNegConst z k x c => exact Laws.RoundTrip.aluNegConst z k x c
  | macSqRnd z x c => exact Laws.RoundTrip.macSqRnd z x c
  | macMulRnd z y x c => exact Laws.RoundTrip.macMulRnd z y x c
  | macAddSqRnd z x c => exact Laws.RoundTrip.macAddSqRnd z x c
  | macRnd z x c => exact Laws.RoundTrip.macRnd z x c
  | macAddRnd z y x c => exact Laws.RoundTrip.macAddRnd z y x c
  | macSubSqRnd z x c => exact Laws.RoundTrip.macSubSqRnd z x c
  | macSubRnd z y x c => exact Laws.RoundTrip.macSubRnd z y x c
  | macSqSS z x c => exact Laws.RoundTrip.macSqSS z x c
  | macZero z x c => exact Laws.RoundTrip.macZero z x c
  | macMulSS z y x c => exact Laws.RoundTrip.macMulSS z y x c
  | macMulSU z y x c => exact Laws.RoundTrip.macMulSU z y x c
  | macMulUS z y x c => exact Laws.RoundTrip.macMulUS z y x c
  | macSqUU z x c => exact Laws.RoundTrip.macSqUU z x c
  | macMulUU z y x c => exact Laws.RoundTrip.macMulUU z y x c
  | macAddSqSS z x c => exact Laws.RoundTrip.macAddSqSS z x c
  | macCopy z x c => exact Laws.RoundTrip.macCopy z x c
  | macAddSS z y x c => exact Laws.RoundTrip.macAddSS z y x c
  | macAddSU z y x c => exact Laws.RoundTrip.macAddSU z y x c
  | macAddUS z y x c => exact Laws.RoundTrip.macAddUS z y x c
  | macAddSqUU z x c => exact Laws.RoundTrip.macAddSqUU z x c
  | macAddUU z y x c => exact Laws.RoundTrip.macAddUU z y x c
  | macSubSqSS z x c => exact Laws.RoundTrip.macSubSqSS z x c
  | macSubSS z y x c => exact Laws.RoundTrip.macSubSS z y x c
  | macSubSU z y x c => exact Laws.RoundTrip.macSubSU z y x c
  | macSubUS z y x c => exact Laws.RoundTrip.macSubUS z y x c
  | macSubSqUU z x c => exact Laws.RoundTrip.macSubSqUU z x c
  | macSubUU z y x c => exact Laws.RoundTrip.macSubUU z y x c
  | condNop c => exact Laws.RoundTrip.condNop c
  | aluNone fn y x => exact Laws.RoundTrip.aluNone fn y x
  | moveDreg dd sd => exact Laws.RoundTrip.moveDreg dd sd
  | aluMove z fn y x dd sd => exact Laws.RoundTrip.aluMove z fn y x dd sd
  | macMove z fn y x dd sd => exact Laws.RoundTrip.macMove z fn y x dd sd
  | dualRead pd dd pi pm di dm => exact Laws.RoundTrip.dualRead pd dd pi pm di dm
  | compDualRead pd dd cp pi pm di dm => exact Laws.RoundTrip.compDualRead pd dd cp pi pm di dm
  | loadDm g d i m => exact Laws.RoundTrip.loadDm g d i m
  | compLoadDm g z cp d i m => exact Laws.RoundTrip.compLoadDm g z cp d i m
  | storeDm g d i m => exact Laws.RoundTrip.storeDm g d i m
  | compStoreDm g z cp d i m => exact Laws.RoundTrip.compStoreDm g z cp d i m
  | loadPm d i m => exact Laws.RoundTrip.loadPm d i m
  | compLoadPm z cp d i m => exact Laws.RoundTrip.compLoadPm z cp d i m
  | storePm d i m => exact Laws.RoundTrip.storePm d i m
  | compStorePm z cp d i m => exact Laws.RoundTrip.compStorePm z cp d i m
  | storeDmImm g data i m => exact Laws.RoundTrip.storeDmImm g data i m
  | loadReg r addr => exact Laws.RoundTrip.loadReg r addr
  | storeReg r addr => exact Laws.RoundTrip.storeReg r addr
  | loadDregImm data d => exact Laws.RoundTrip.loadDregImm data d
  | loadPmovlay data => exact Laws.RoundTrip.loadPmovlay data
  | loadDmovlay data => exact Laws.RoundTrip.loadDmovlay data
  | loadRegImm r data => exact Laws.RoundTrip.loadRegImm r data
  | jump addr c => exact Laws.RoundTrip.jump addr c
  | call addr c => exact Laws.RoundTrip.call addr c
  | doUntil addr t => exact Laws.RoundTrip.doUntil addr t
  | shiftLoadDm g fn x d i m => exact Laws.RoundTrip.shiftLoadDm g fn x d i m
  | shiftStoreDm g fn x d i m => exact Laws.RoundTrip.shiftStoreDm g fn x d i m
  | shiftLoadPm fn x d i m => exact Laws.RoundTrip.shiftLoadPm fn x d i m
  | shiftStorePm fn x d i m => exact Laws.RoundTrip.shiftStorePm fn x d i m
  | shiftMove fn x dd sd => exact Laws.RoundTrip.shiftMove fn x dd sd
  | lshiftImmHi x e => exact Laws.RoundTrip.lshiftImmHi x e
  | lshiftImmHiOr x e => exact Laws.RoundTrip.lshiftImmHiOr x e
  | lshiftImmLo x e => exact Laws.RoundTrip.lshiftImmLo x e
  | lshiftImmLoOr x e => exact Laws.RoundTrip.lshiftImmLoOr x e
  | ashiftImmHi x e => exact Laws.RoundTrip.ashiftImmHi x e
  | ashiftImmHiOr x e => exact Laws.RoundTrip.ashiftImmHiOr x e
  | ashiftImmLo x e => exact Laws.RoundTrip.ashiftImmLo x e
  | ashiftImmLoOr x e => exact Laws.RoundTrip.ashiftImmLoOr x e
  | lshiftHi x c => exact Laws.RoundTrip.lshiftHi x c
  | lshiftHiOr x c => exact Laws.RoundTrip.lshiftHiOr x c
  | lshiftLo x c => exact Laws.RoundTrip.lshiftLo x c
  | lshiftLoOr x c => exact Laws.RoundTrip.lshiftLoOr x c
  | ashiftHi x c => exact Laws.RoundTrip.ashiftHi x c
  | ashiftHiOr x c => exact Laws.RoundTrip.ashiftHiOr x c
  | ashiftLo x c => exact Laws.RoundTrip.ashiftLo x c
  | ashiftLoOr x c => exact Laws.RoundTrip.ashiftLoOr x c
  | normHi x c => exact Laws.RoundTrip.normHi x c
  | normHiOr x c => exact Laws.RoundTrip.normHiOr x c
  | normLo x c => exact Laws.RoundTrip.normLo x c
  | normLoOr x c => exact Laws.RoundTrip.normLoOr x c
  | expHi x c => exact Laws.RoundTrip.expHi x c
  | expHix x c => exact Laws.RoundTrip.expHix x c
  | expLo x c => exact Laws.RoundTrip.expLo x c
  | expAdj x c => exact Laws.RoundTrip.expAdj x c
  | pushTop r => exact Laws.RoundTrip.pushTop r
  | popTop r => exact Laws.RoundTrip.popTop r
  | moveReg dst src => exact Laws.RoundTrip.moveReg dst src
  | modeControl tim mac sat ovl rev sec go => exact Laws.RoundTrip.modeControl tim mac sat ovl rev sec go
  | jumpInd i c => exact Laws.RoundTrip.jumpInd i c
  | callInd i c => exact Laws.RoundTrip.callInd i c
  | rts c => exact Laws.RoundTrip.rts c
  | rti c => exact Laws.RoundTrip.rti c
  | modify g i m => exact Laws.RoundTrip.modify g i m
  | divq x => exact Laws.RoundTrip.divq x
  | divs y x => exact Laws.RoundTrip.divs y x
  | satMr => exact Laws.RoundTrip.satMr
  | enaInts => exact Laws.RoundTrip.enaInts
  | disInts => exact Laws.RoundTrip.disInts
  | stackControl iq pp lp cp spp => exact Laws.RoundTrip.stackControl iq pp lp cp spp
  | jumpFlagIn addr fic => exact Laws.RoundTrip.jumpFlagIn addr fic
  | callFlagIn addr fic => exact Laws.RoundTrip.callFlagIn addr fic
  | flagOut f2 f1 f0 fo c => exact Laws.RoundTrip.flagOut f2 f1 f0 fo c
  | idle => exact Laws.RoundTrip.idle
  | idleSlow n => exact Laws.RoundTrip.idleSlow n
  | ioRead addr d => exact Laws.RoundTrip.ioRead addr d
  | ioWrite addr d => exact Laws.RoundTrip.ioWrite addr d
  | nop => exact Laws.RoundTrip.nop
  | type22 low => exact Laws.RoundTrip.type22 low

/-- Settles O1: each instruction's word decodes to it, by the law of its constructor. -/
theorem decodeOfEncode : Obligations.DecodeOfEncode := roundTrip

end Sys2Proof
end

section
/-!
PROOFS. Words with named bits: those written out from the layouts, Type 22, and group 3 code 15 of Types 3 and 7
(30_encoding.md R182, R185, R192).
-/

namespace Sys2Proof

/-- A word put together from two fields, as a number. -/
theorem toNat_append_eq_add {n m : Nat} (x : BitVec n) (y : BitVec m) : (x ++ y).toNat = x.toNat * 2 ^ m + y.toNat := by
  rw [BitVec.toNat_append, ← Nat.shiftLeft_add_eq_or_of_lt y.isLt, Nat.shiftLeft_eq]

/-- Type 22 keeps its sixteen low bits as they are. -/
theorem encode_type22 (low : BitVec 16) : encode (.type22 low) = 0x08#8 ++ low := by
  apply BitVec.eq_of_toNat_eq
  have h := low.isLt
  rw [toNat_append_eq_add]
  simp only [encode, encodeNat, BitVec.toNat_ofNat]
  omega

/-- Group 3 code 15, TOPPCSTACK, is no register of a move (30_encoding.md R172). -/
theorem Reg.ofCode_topPcStack : Reg.ofCode 3 15 = none := rfl

/-- The word of Type 7 that would load TOPPCSTACK is reserved. -/
theorem decode_type7_topPcStack (a : BitVec 14) : decode (0b001111#6 ++ a ++ 0b1111#4) = .reserved .regCode := by
  have hw : (0b001111#6 ++ a ++ 0b1111#4).toNat = 3145728 + 3 * 262144 + a.toNat * 16 + 15 := by
    rw [toNat_append_eq_add, toNat_append_eq_add, BitVec.toNat_ofNat, BitVec.toNat_ofNat]
    omega
  obtain ⟨hlo, hhi, hgroup, -, hcode, -⟩ := word_type7 hw (by decide) a.isLt (by decide)
  rw [decode, decodeNat_type7 _ hlo hhi]
  simp only [decodeType7, hgroup, hcode, Reg.ofCode_topPcStack]

/-- The words of Type 3 that would load or store TOPPCSTACK are reserved. -/
theorem decode_type3_topPcStack (d : Bool) (a : BitVec 14) :
    decode (0b100#3 ++ BitVec.ofBool d ++ 0b11#2 ++ a ++ 0b1111#4) = .reserved .regCode := by
  have hw : (0b100#3 ++ BitVec.ofBool d ++ 0b11#2 ++ a ++ 0b1111#4).toNat =
      8388608 + d.toNat * 1048576 + 3 * 262144 + a.toNat * 16 + 15 := by
    simp only [toNat_append_eq_add, BitVec.toNat_ofNat, BitVec.toNat_ofBool]
    omega
  obtain ⟨hlo, hhi, -, hgroup, -, hcode, -⟩ := word_type3 hw d.toNat_lt (by decide) a.isLt (by decide)
  rw [decode, decodeNat_type3 _ hlo hhi]
  simp only [decodeType3, hgroup, hcode, Reg.ofCode_topPcStack]

end Sys2Proof

namespace Sys2Proof.Machine

/-- Settles O3: the listed words by the decoder's own computation, Type 22 by the round trip, TOPPCSTACK by its code. -/
theorem decodedWords : Obligations.DecodedWords := by
  have type22 (low : BitVec 16) (s : State) : decode (0x08#8 ++ low) = .instr (.type22 low) ∧
      exec (.type22 low) s = .refused (.reservedWord .type22) :=
    ⟨encode_type22 low ▸ Laws.RoundTrip.type22 low rfl, rfl⟩
  have topPcStack (d : Bool) (a : BitVec 14) := And.intro (decode_type7_topPcStack a) (decode_type3_topPcStack d a)
  exact ⟨by decide, by decide, by decide, by decide, by decide, by decide, by decide, by decide, by decide, by decide,
    by decide, by decide, type22, topPcStack⟩

end Sys2Proof.Machine
end

section
/-!
PROOFS. The conditions by their codes, and what a false condition leaves of a conditional computation (30_encoding.md R176,
R177; 40_alu.md R225).
-/

namespace Sys2Proof.Machine

/-! ### COND and TERM codes -/

/-- NOT CE tests that the counter is not 1 (44_program_flow.md R412). -/
theorem bne_one_eq_not_decide (cntr : Addr) : (cntr != 1#14) = !decide (cntr.toNat = 1) := by
  simp [bne, beq_eq_decide, BitVec.toNat_eq]

/-- A TERM code tests what the COND code of the same number tests, complemented (30_encoding.md R177). -/
theorem termComplement_ofCode (k : Nat) (h : k < 16) : termComplement (Term.ofCode k) = Cond.ofCode k := by
  interval_cases k <;> rfl

/-- The list of all TERM codes is the list of all COND codes, complemented. -/
theorem termTrue_codes (a : BitVec 8) (cntr : Addr) : (List.range 16).map (fun k => termTrue (Term.ofCode k) a cntr) =
    ((List.range 16).map (fun k => condTrue (Cond.ofCode k) a cntr)).map (fun b => !b) := by
  rw [List.map_map]
  refine List.map_congr_left fun k hk => ?_
  simp only [Function.comp_apply, termTrue, termComplement_ofCode k (List.mem_range.mp hk)]

/-- Settles O4: the COND list code by code, the TERM list as its complement. -/
theorem conditionCodes : Obligations.ConditionCodes := by
  intro s
  refine (and_iff_left_of_imp fun hcond => ?_).mpr ?_
  · exact (termTrue_codes _ _).trans ((congrArg (List.map fun b => !b) hcond).trans (by simp))
  · simp [List.range, List.range.loop, Cond.ofCode, State.cond, condTrue, bne_one_eq_not_decide, astatAZ, astatAN, astatAV,
      astatAC, astatAS, astatMV]

/-! ### A false condition -/

/-- A conditional computation is its effect under its condition. -/
theorem exec_eq_doneIf_of_guard {i : Instr} {c : Cond} (h : guard i = some c) (s : State) :
    ∃ t, exec i s = s.doneIf c t := by
  cases i with
  | aluNone | moveDreg | aluMove | macMove | dualRead | compDualRead | loadDm | compLoadDm | storeDm | compStoreDm | loadPm
  | compLoadPm | storePm | compStorePm | storeDmImm | loadReg | storeReg | loadDregImm | loadPmovlay | loadDmovlay
  | loadRegImm | jump | call | doUntil | shiftLoadDm | shiftStoreDm | shiftLoadPm | shiftStorePm | shiftMove
  | lshiftImmHi | lshiftImmHiOr | lshiftImmLo | lshiftImmLoOr | ashiftImmHi | ashiftImmHiOr | ashiftImmLo | ashiftImmLoOr
  | pushTop | popTop | moveReg | modeControl | jumpInd | callInd | rts | rti | modify | divq | divs | enaInts | disInts
  | stackControl | jumpFlagIn | callFlagIn | idle | idleSlow | ioRead | ioWrite | nop | type22 => cases h
  | _ =>
    cases h
    exact ⟨_, rfl⟩

/-- A false condition leaves the sequencing step, which is all that NOP does. -/
theorem doneIf_of_false {s : State} {c : Cond} (h : s.cond c = false) (t : State) : s.doneIf c t = exec .nop s := by
  simp only [State.doneIf, h, Bool.false_eq_true, if_false]
  rfl

/-- Settles O19: a conditional computation is its effect under its condition, so that a false one leaves a NOP. -/
theorem conditionFalse : Obligations.ConditionFalse := by
  intro i c s hg hc
  obtain ⟨t, ht⟩ := exec_eq_doneIf_of_guard hg s
  exact ⟨s.advance s, ht.trans (doneIf_of_false hc t), advance_onlyFlow s s, rfl, rfl⟩

end Sys2Proof.Machine
end

section
/-!
PROOFS. Every word that decodes is the word of what it decodes to (30_encoding.md R161, R192): the code a field was read from is
the code of what was read, and each type's fields with its fixed bits make up the word.
-/

namespace Sys2Proof

/-! ### The code of what a field reads -/

section
variable (k : Nat)

@[simp] theorem Dest.code_ofCode : (Dest.ofCode (k % 2)).code = k % 2 :=
  (by decide : ∀ i < 2, (Dest.ofCode i).code = i) _ (Nat.mod_lt k (by decide))
@[simp] theorem Xop.code_ofCode : (Xop.ofCode (k % 8)).code = k % 8 :=
  (by decide : ∀ i < 8, (Xop.ofCode i).code = i) _ (Nat.mod_lt k (by decide))
@[simp] theorem Yop.code_ofCode : (Yop.ofCode (k % 4)).code = k % 4 :=
  (by decide : ∀ i < 4, (Yop.ofCode i).code = i) _ (Nat.mod_lt k (by decide))
@[simp] theorem Cond.code_ofCode : (Cond.ofCode (k % 16)).code = k % 16 :=
  (by decide : ∀ i < 16, (Cond.ofCode i).code = i) _ (Nat.mod_lt k (by decide))
@[simp] theorem Term.code_ofCode : (Term.ofCode (k % 16)).code = k % 16 :=
  (by decide : ∀ i < 16, (Term.ofCode i).code = i) _ (Nat.mod_lt k (by decide))
@[simp] theorem AluFn.code_ofCode : (AluFn.ofCode (k % 16)).code = k % 16 :=
  (by decide : ∀ i < 16, (AluFn.ofCode i).code = i) _ (Nat.mod_lt k (by decide))
@[simp] theorem ShiftFn.code_ofCode : (ShiftFn.ofCode (k % 16)).code = k % 16 :=
  (by decide : ∀ i < 16, (ShiftFn.ofCode i).code = i) _ (Nat.mod_lt k (by decide))
@[simp] theorem Dreg.code_ofCode : (Dreg.ofCode (k % 16)).code = k % 16 :=
  (by decide : ∀ i < 16, (Dreg.ofCode i).code = i) _ (Nat.mod_lt k (by decide))
@[simp] theorem DmDst.code_ofCode : (DmDst.ofCode (k % 4)).code = k % 4 :=
  (by decide : ∀ i < 4, (DmDst.ofCode i).code = i) _ (Nat.mod_lt k (by decide))
@[simp] theorem PmDst.code_ofCode : (PmDst.ofCode (k % 4)).code = k % 4 :=
  (by decide : ∀ i < 4, (PmDst.ofCode i).code = i) _ (Nat.mod_lt k (by decide))
@[simp] theorem ModeOp.code_ofCode : (ModeOp.ofCode (k % 4)).code = k % 4 :=
  (by decide : ∀ i < 4, (ModeOp.ofCode i).code = i) _ (Nat.mod_lt k (by decide))
@[simp] theorem FlagOp.code_ofCode : (FlagOp.ofCode (k % 4)).code = k % 4 :=
  (by decide : ∀ i < 4, (FlagOp.ofCode i).code = i) _ (Nat.mod_lt k (by decide))
@[simp] theorem StsOp.code_ofCode : (StsOp.ofCode (k % 4)).code = k % 4 :=
  (by decide : ∀ i < 4, (StsOp.ofCode i).code = i) _ (Nat.mod_lt k (by decide))
@[simp] theorem boolCode_bit : boolCode (k % 2 == 1) = k % 2 :=
  (by decide : ∀ i < 2, boolCode (i == 1) = i) _ (Nat.mod_lt k (by decide))

end

/-! The fields with codes the tables leave out. -/

theorem YReg.code_of_ofCode {k : Nat} {y : YReg} (h : YReg.ofCode k = some y) : y.code = k := by
  unfold YReg.ofCode at h
  split at h <;> cases h <;> rfl
theorem ShXop.code_of_ofCode {k : Nat} {x : ShXop} (h : ShXop.ofCode k = some x) : x.code = k := by
  unfold ShXop.ofCode at h
  split at h <;> cases h <;> rfl
theorem DivY.code_of_ofCode {k : Nat} {y : DivY} (h : DivY.ofCode k = some y) : y.code = k := by
  unfold DivY.ofCode at h
  split at h <;> cases h <;> rfl
theorem SlowDiv.code_of_ofCode {k : Nat} {n : SlowDiv} (h : SlowDiv.ofCode k = some n) : n.code = k := by
  unfold SlowDiv.ofCode at h
  split at h <;> cases h <;> rfl
theorem MacFn.code_of_ofCode {k : Nat} {f : MacFn} (h : MacFn.ofCode k = some f) : f.code = k := by
  unfold MacFn.ofCode at h
  split at h <;> cases h <;> rfl

/-- A two-bit Y code names a register, or is 11. -/
theorem YReg.ofCode_cases (k : Nat) : (∃ r, YReg.ofCode (k % 4) = some r ∧ r.code = (Yop.ofCode (k % 4)).code) ∨
    (YReg.ofCode (k % 4) = none ∧ (Yop.ofCode (k % 4)).code = 3) := by
  cases hr : YReg.ofCode (k % 4) with
  | some r => exact .inl ⟨r, rfl, (YReg.code_of_ofCode hr).trans (Yop.code_ofCode k).symm⟩
  | none =>
    have hk := (by decide : ∀ i < 4, YReg.ofCode i = none → i = 3) _ (Nat.mod_lt k (by decide)) hr
    exact .inr ⟨rfl, (Yop.code_ofCode k).trans hk⟩

/-- Of the MAC function codes only 00000 is no function. -/
theorem MacFn.eq_zero_of_ofCode : ∀ k < 16, MacFn.ofCode k = none → k = 0 := by decide

theorem Reg.code_of_ofCode {g c : Nat} : ∀ r ∈ Reg.ofCode (g % 4) (c % 16), r.group = g % 4 ∧ r.code = c % 16 :=
  (by decide : ∀ i < 4, ∀ j < 16, ∀ r ∈ Reg.ofCode i j, r.group = i ∧ r.code = j)
    _ (Nat.mod_lt g (by decide)) _ (Nat.mod_lt c (by decide))

theorem Comp.code_of_ofCode {k : Nat} {cp : Comp} (hk : k < 1024) (h : Comp.ofCode k = some cp) : cp.code = k := by
  unfold Comp.ofCode at h
  split at h
  · cases h
    have hf := AluFn.code_ofCode (k / 32 - 16)
    rw [Nat.mod_eq_of_lt (by omega)] at hf
    simp only [Comp.code, hf, Yop.code_ofCode, Xop.code_ofCode]
    omega
  · obtain ⟨fn, hfn, rfl⟩ := Option.map_eq_some_iff.mp h
    simp only [Comp.code, MacFn.code_of_ofCode hfn, Yop.code_ofCode, Xop.code_ofCode]
    omega

/-- A computation field that names none has AMF 00000. -/
theorem Comp.lt_of_ofCode {k : Nat} (h : Comp.ofCode k = none) : k / 32 = 0 := by
  unfold Comp.ofCode at h
  split at h
  · cases h
  · exact MacFn.eq_zero_of_ofCode _ (by omega) (Option.map_eq_none_iff.mp h)

/-- The constant read from a word puts back the bits it was read from. -/
@[simp] theorem Const.bits_ofBits (w : Nat) :
    (Const.ofBits w).bits = w / 2048 % 4 * 2048 + w / 64 % 4 * 64 + w / 32 % 2 * 32 + 16 := by
  simp only [Const.bits, Const.ofBits, boolCode_bit, Fin.ofNat]
  omega

/-! ### What a decoder may answer -/

/-- The answer is a well-formed instruction whose word has the number `w`, or a refusal. -/
def Decoded.Reads (w : Nat) : Decoded → Prop
  | .instr i => i.wellFormed = true ∧ encodeNat i = w
  | .reserved _ => True

section
variable {w : Nat}

/- One lemma after another: all of them wait for the equation lemmas of `encodeNat`. -/
set_option Elab.async false

@[simp] theorem reads_instr (i : Instr) : (Decoded.instr i).Reads w ↔ i.wellFormed = true ∧ encodeNat i = w := Iff.rfl
@[simp] theorem reads_reserved (r : Reserved) : (Decoded.reserved r).Reads w := trivial

/-! ### Type 9 (30_encoding.md R169)

The words of a form are taken apart once; in each row of the form the fields are then mere numbers. -/

/-- A word of Type 9 is what its fields make up, bits 7:4 taken whole. -/
theorem type9_eq_fields (hlo : 2097152 ≤ w) (hhi : w < 2621440) :
    w = 2097152 + (Dest.ofCode (w / 262144 % 2)).code * 262144 + w / 8192 % 32 * 8192 + (Yop.ofCode (w / 2048 % 4)).code * 2048 +
      (Xop.ofCode (w / 256 % 8)).code * 256 + w / 16 % 16 * 16 + (Cond.ofCode (w % 16)).code := by
  simp only [Dest.code_ofCode, Yop.code_ofCode, Xop.code_ofCode, Cond.code_ofCode]
  omega

/-- A word of Type 9's constant form is what its fields make up. -/
theorem type9Const_eq_fields (hlo : 2097152 ≤ w) (hhi : w < 2621440) (hb : w / 16 % 2 = 1) :
    w = 2097152 + (Dest.ofCode (w / 262144 % 2)).code * 262144 + w / 8192 % 32 * 8192 + (Const.ofBits w).bits +
      (Xop.ofCode (w / 256 % 8)).code * 256 + (Cond.ofCode (w % 16)).code := by
  have hw := type9_eq_fields hlo hhi
  have hlow : w / 16 % 16 = w / 64 % 4 * 4 + w / 32 % 2 * 2 + 1 := by omega
  rw [Yop.code_ofCode, hlow] at hw
  rw [Const.bits_ofBits]
  exact hw.trans (by ring)

theorem decodeAluConst_reads (hlo : 2097152 ≤ w) (hhi : w < 2621440) (hb : w / 16 % 2 = 1) : (decodeAluConst w).Reads w := by
  have hw := type9Const_eq_fields hlo hhi hb
  clear hlo hhi hb
  unfold decodeAluConst
  generalize w / 8192 % 32 = amf, Dest.ofCode (w / 262144 % 2) = z, Const.ofBits w = k, Xop.ofCode (w / 256 % 8) = x,
    Cond.ofCode (w % 16) = c at hw ⊢
  dsimp only
  split <;> simp only [reads_instr, reads_reserved, Instr.wellFormed, encodeNat, true_and] <;> omega

theorem decodeAluReg_reads (hlo : 2097152 ≤ w) (hhi : w < 2621440) (hb : w / 16 % 16 = 0) : (decodeAluReg w).Reads w := by
  have hw := type9_eq_fields hlo hhi
  rw [hb] at hw
  clear hlo hhi hb
  unfold decodeAluReg
  obtain ⟨r, hr, hy⟩ | ⟨hr, hy⟩ := YReg.ofCode_cases (w / 2048)
  all_goals
    simp only [hr]
    generalize w / 8192 % 32 = amf, Dest.ofCode (w / 262144 % 2) = z, Yop.ofCode (w / 2048 % 4) = y,
      Xop.ofCode (w / 256 % 8) = x, Cond.ofCode (w % 16) = c at hw hy ⊢
    split <;> simp only [reads_instr, reads_reserved, Instr.wellFormed, encodeNat, true_and] <;> omega

theorem decodeMacReg_reads (hlo : 2097152 ≤ w) (hhi : w < 2621440) (hb : w / 16 % 16 = 0) : (decodeMacReg w).Reads w := by
  have hw := type9_eq_fields hlo hhi
  rw [hb] at hw
  clear hlo hhi hb
  unfold decodeMacReg
  obtain ⟨r, hr, hy⟩ | ⟨hr, hy⟩ := YReg.ofCode_cases (w / 2048)
  all_goals
    simp only [hr]
    generalize w / 8192 % 32 = amf, Dest.ofCode (w / 262144 % 2) = z, Yop.ofCode (w / 2048 % 4) = y,
      Xop.ofCode (w / 256 % 8) = x, Cond.ofCode (w % 16) = c at hw hy ⊢
    split <;> simp only [reads_instr, reads_reserved, Instr.wellFormed, encodeNat, true_and] <;> omega

theorem decodeMacSquare_reads (hlo : 2097152 ≤ w) (hhi : w < 2621440) (hb : w / 16 % 16 = 1) (hy : w / 2048 % 4 = 0) :
    (decodeMacSquare w).Reads w := by
  have hw := type9_eq_fields hlo hhi
  rw [Yop.code_ofCode, hb, hy] at hw
  clear hlo hhi hb hy
  unfold decodeMacSquare
  generalize w / 8192 % 32 = amf, Dest.ofCode (w / 262144 % 2) = z, Xop.ofCode (w / 256 % 8) = x,
    Cond.ofCode (w % 16) = c at hw ⊢
  dsimp only
  split <;> simp only [reads_instr, reads_reserved, Instr.wellFormed, encodeNat, true_and] <;> omega

theorem decodeType9_reads (hlo : 2097152 ≤ w) (hhi : w < 2621440) : (decodeType9 w).Reads w := by
  unfold decodeType9
  split
  · split
    · exact decodeAluReg_reads hlo hhi ‹_›
    · split
      · exact decodeAluConst_reads hlo hhi ‹_›
      · trivial
  · split
    · split
      · refine ⟨rfl, ?_⟩
        simp only [encodeNat, Cond.code_ofCode]
        omega
      · trivial
    · split
      · exact decodeMacReg_reads hlo hhi ‹_›
      · split
        next h => exact decodeMacSquare_reads hlo hhi h.1 h.2
        next => trivial

/-! ### Computations beside a move or an access: Types 1, 4, 5 and 8 (30_encoding.md R163, R166, R168) -/

/-- `<ALU>, AR = AR` writes one register twice, and its word is that of NONE: bits 7:0 are 0xAA with Z = 0. -/
theorem aluMove_wellFormed {z : Dest} {dd sd : Dreg} (h : ¬(z.code = 0 ∧ dd.code * 16 + sd.code = 170)) (fn : AluFn) (y : Yop)
    (x : Xop) : (Instr.aluMove z fn y x dd sd).wellFormed = true := by
  unfold Instr.wellFormed
  split
  next h' =>
    cases h'
    exact absurd (by decide) h
  all_goals trivial

theorem decodeType8_reads (hlo : 2621440 ≤ w) (hhi : w < 3145728) : (decodeType8 w).Reads w := by
  unfold decodeType8
  split
  · split
    · refine ⟨rfl, ?_⟩
      simp only [encodeNat, AluFn.code_ofCode, Yop.code_ofCode, Xop.code_ofCode]
      omega
    · refine ⟨aluMove_wellFormed ?_ _ _ _, ?_⟩
      · simp only [Dest.code_ofCode, Dreg.code_ofCode]
        omega
      · simp only [encodeNat, Dest.code_ofCode, AluFn.code_ofCode, Yop.code_ofCode, Xop.code_ofCode, Dreg.code_ofCode]
        omega
  · split
    next fn hfn =>
      refine ⟨rfl, ?_⟩
      simp only [encodeNat, MacFn.code_of_ofCode hfn, Dest.code_ofCode, Yop.code_ofCode, Xop.code_ofCode, Dreg.code_ofCode]
      omega
    next hfn =>
      have hamf := MacFn.eq_zero_of_ofCode _ (by omega) hfn
      split
      · refine ⟨rfl, ?_⟩
        simp only [encodeNat, Dreg.code_ofCode]
        omega
      · trivial

theorem decodeType1_reads (hlo : 12582912 ≤ w) (hhi : w < 16777216) : (decodeType1 w).Reads w := by
  unfold decodeType1
  split
  next cp hcp =>
    have hcode := Comp.code_of_ofCode (by omega) hcp
    simp [encodeNat, hcode, Instr.wellFormed]
    omega
  next hcp =>
    have hamf := Comp.lt_of_ofCode hcp
    split
    · simp [encodeNat, Instr.wellFormed]
      omega
    · trivial

theorem decodeType4_reads (hlo : 6291456 ≤ w) (hhi : w < 8388608) : (decodeType4 w).Reads w := by
  unfold decodeType4
  split
  next cp hcp =>
    have hcode := Comp.code_of_ofCode (by omega) hcp
    split <;> simp [encodeNat, hcode, Instr.wellFormed] <;> omega
  next hcp =>
    have hamf := Comp.lt_of_ofCode hcp
    split
    · split <;> simp [encodeNat, Instr.wellFormed] <;> omega
    · trivial

theorem decodeType5_reads (hlo : 5242880 ≤ w) (hhi : w < 6291456) : (decodeType5 w).Reads w := by
  unfold decodeType5
  split
  next cp hcp =>
    have hcode := Comp.code_of_ofCode (by omega) hcp
    split <;> simp [encodeNat, hcode, Instr.wellFormed] <;> omega
  next hcp =>
    have hamf := Comp.lt_of_ofCode hcp
    split
    · split <;> simp [encodeNat, Instr.wellFormed] <;> omega
    · trivial

/-! ### Any register: Types 3, 7 and 17 (30_encoding.md R165, R167, R182) -/

theorem decodeType3_reads (hlo : 8388608 ≤ w) (hhi : w < 10485760) : (decodeType3 w).Reads w := by
  unfold decodeType3
  split
  · trivial
  next r hr =>
    obtain ⟨hgroup, hcode⟩ := Reg.code_of_ofCode r hr
    split
    · split
      next hwr => simp [encodeNat, hgroup, hcode, Instr.wellFormed, hwr]; omega
      next => trivial
    · split
      next hrd => simp [encodeNat, hgroup, hcode, Instr.wellFormed, hrd]; omega
      next => trivial

theorem Reg.notOverlay_of_ne {r : Reg} (hp : r ≠ .pmovlay) (hd : r ≠ .dmovlay) : r.notOverlay = true := by
  cases r with
  | pmovlay => exact absurd rfl hp
  | dmovlay => exact absurd rfl hd
  | _ => rfl

theorem decodeType7_reads (hlo : 3145728 ≤ w) (hhi : w < 4194304) : (decodeType7 w).Reads w := by
  unfold decodeType7
  split
  · trivial
  next hr =>
    obtain ⟨hgroup, hcode⟩ := Reg.code_of_ofCode _ hr
    simp only [Reg.group, Reg.code] at hgroup hcode
    simp [encodeNat, Instr.wellFormed]
    omega
  next hr =>
    obtain ⟨hgroup, hcode⟩ := Reg.code_of_ofCode _ hr
    simp only [Reg.group, Reg.code] at hgroup hcode
    simp [encodeNat, Instr.wellFormed]
    omega
  next r hp hd hr =>
    obtain ⟨hgroup, hcode⟩ := Reg.code_of_ofCode r hr
    split
    next hwr =>
      simp [encodeNat, hgroup, hcode, Instr.wellFormed, hwr, Reg.notOverlay_of_ne hp hd]
      omega
    next => trivial

theorem decodeType17_reads (hw : w / 65536 = 13) : (decodeType17 w).Reads w := by
  unfold decodeType17
  split
  · trivial
  · split
    · split
      · trivial
      next r hr =>
        obtain ⟨hgroup, hcode⟩ := Reg.code_of_ofCode r hr
        split
        next htop => simp [encodeNat, hgroup, hcode, Instr.wellFormed, htop]; omega
        next => trivial
    · split
      · split
        · trivial
        next r hr =>
          obtain ⟨hgroup, hcode⟩ := Reg.code_of_ofCode r hr
          split
          next htop => simp [encodeNat, hgroup, hcode, Instr.wellFormed, htop]; omega
          next => trivial
      · split
        · trivial
        next dst hdst =>
          obtain ⟨hdgroup, hdcode⟩ := Reg.code_of_ofCode dst hdst
          split
          · trivial
          next src hsrc =>
            obtain ⟨hsgroup, hscode⟩ := Reg.code_of_ofCode src hsrc
            split
            next hacc => simp [encodeNat, hdgroup, hdcode, hsgroup, hscode, Instr.wellFormed, hacc]; omega
            next => trivial

/-! ### Shifts: Types 12 to 16 (30_encoding.md R179, R181) -/

theorem decodeType12_reads (hlo : 1179648 ≤ w) (hhi : w < 1310720) : (decodeType12 w).Reads w := by
  unfold decodeType12
  split
  · trivial
  next x hx =>
    have hcode := ShXop.code_of_ofCode hx
    split <;> simp [encodeNat, hcode, Instr.wellFormed] <;> omega

theorem decodeType13_reads (hlo : 1114112 ≤ w) (hhi : w < 1179648) : (decodeType13 w).Reads w := by
  unfold decodeType13
  split
  · trivial
  next x hx =>
    have hcode := ShXop.code_of_ofCode hx
    split <;> simp [encodeNat, hcode, Instr.wellFormed] <;> omega

theorem decodeType14_reads (hlo : 1048576 ≤ w) (hhi : w < 1114112) : (decodeType14 w).Reads w := by
  unfold decodeType14
  split
  · split
    · trivial
    next x hx =>
      simp [encodeNat, ShXop.code_of_ofCode hx, Instr.wellFormed]
      omega
  · trivial

theorem decodeType15_reads (hw : w / 65536 = 15) : (decodeType15 w).Reads w := by
  unfold decodeType15
  dsimp only
  split
  · split
    · trivial
    next hb x hx =>
      have hfields : w = 983040 + w / 2048 % 16 * 2048 + x.code * 256 + (BitVec.ofNat 8 (w % 256)).toNat := by
        rw [ShXop.code_of_ofCode hx, BitVec.toNat_ofNat]
        omega
      clear hw hb hx
      generalize w / 2048 % 16 = fn, BitVec.ofNat 8 (w % 256) = e at hfields ⊢
      split <;> simp only [reads_instr, reads_reserved, Instr.wellFormed, encodeNat, true_and] <;> omega
  · trivial

theorem decodeType16_reads (hw : w / 65536 = 14) : (decodeType16 w).Reads w := by
  unfold decodeType16
  dsimp only
  split
  · split
    · trivial
    next hb x hx =>
      have hfields : w = 917504 + w / 2048 % 16 * 2048 + x.code * 256 + (Cond.ofCode (w % 16)).code := by
        rw [ShXop.code_of_ofCode hx, Cond.code_ofCode]
        omega
      have hfn := Nat.mod_lt (w / 2048) (y := 16) (by decide)
      clear hw hb hx
      generalize w / 2048 % 16 = fn, Cond.ofCode (w % 16) = c at hfields hfn ⊢
      interval_cases fn <;> simp only [reads_instr, Instr.wellFormed, encodeNat, true_and] <;> omega
  · trivial

/-! ### The other types (30_encoding.md R161, R180 to R190) -/

theorem decodeType10_reads (hlo : 1572864 ≤ w) (hhi : w < 2097152) : (decodeType10 w).Reads w := by
  unfold decodeType10
  split <;> simp [encodeNat, Instr.wellFormed] <;> omega

theorem decodeType18_reads (hw : w / 65536 = 12) : (decodeType18 w).Reads w := by
  unfold decodeType18
  split
  next hb =>
    have hhigh : w / 256 = 3072 + w / 16384 % 4 * 64 + w / 4096 % 4 * 16 + w / 1024 % 4 * 4 + w / 256 % 4 := by omega
    have hlow : w % 256 = w / 64 % 4 * 64 + w / 16 % 4 * 16 + w / 4 % 4 * 4 := by omega
    have hfields := Nat.div_add_mod w 256
    rw [hhigh, hlow] at hfields
    refine ⟨rfl, Eq.trans ?_ hfields⟩
    simp only [encodeNat, ModeOp.code_ofCode]
    ring
  next => trivial

theorem decodeType19_reads (hw : w / 65536 = 11) : (decodeType19 w).Reads w := by
  unfold decodeType19
  split
  · split <;> simp [encodeNat, Instr.wellFormed] <;> omega
  · trivial

theorem decodeType20_reads (hw : w / 65536 = 10) : (decodeType20 w).Reads w := by
  unfold decodeType20
  split
  · split <;> simp [encodeNat, Instr.wellFormed] <;> omega
  · trivial

theorem decodeType21_reads (hw : w / 65536 = 9) : (decodeType21 w).Reads w := by
  unfold decodeType21
  split
  · simp [encodeNat, Instr.wellFormed]
    omega
  · trivial

theorem decodeType23_reads (hw : w / 65536 = 7) : (decodeType23 w).Reads w := by
  unfold decodeType23
  split
  · simp [encodeNat, Instr.wellFormed]
    omega
  · trivial

theorem decodeType24_reads (hw : w / 65536 = 6) : (decodeType24 w).Reads w := by
  unfold decodeType24
  split
  · split
    next y hy =>
      simp [encodeNat, DivY.code_of_ofCode hy, Instr.wellFormed]
      omega
    next => trivial
  · trivial

theorem decodeType25_reads (hw : w / 65536 = 5) : (decodeType25 w).Reads w := by
  unfold decodeType25
  split
  · simp [encodeNat, Instr.wellFormed]
    omega
  · trivial

theorem decodeType26_reads (hw : w / 65536 = 4) : (decodeType26 w).Reads w := by
  unfold decodeType26
  split
  · simp [encodeNat, Instr.wellFormed]
    omega
  · split
    · simp [encodeNat, Instr.wellFormed]
      omega
    · split
      · split
        · simp [encodeNat, Instr.wellFormed]
          omega
        · trivial
      · trivial

theorem decodeType27_reads (hw : w / 65536 = 3) : (decodeType27 w).Reads w := by
  have hfields : w = 196608 + w / 16 % 4096 * 16 + w / 4 % 4 * 4 + boolCode (w / 2 % 2 == 1) * 2 + w % 2 := by
    rw [boolCode_bit]
    omega
  have haddr : (BitVec.ofNat 14 (w / 4 % 4 * 4096 + w / 16 % 4096)).toNat = w / 4 % 4 * 4096 + w / 16 % 4096 :=
    Nat.mod_eq_of_lt (by omega)
  have hlow := Nat.mod_lt (w / 16) (y := 4096) (by decide)
  unfold decodeType27
  generalize w / 16 % 4096 = r, w / 4 % 4 = q at hfields haddr hlow ⊢
  dsimp only
  split <;> simp only [reads_instr, Instr.wellFormed, encodeNat, true_and, haddr] <;> omega

theorem decodeType28_reads (hw : w / 65536 = 2) : (decodeType28 w).Reads w := by
  unfold decodeType28
  split
  · split
    · simp [encodeNat, Instr.wellFormed]
      omega
    · trivial
  · split
    · split
      · simp [encodeNat, Instr.wellFormed]
        omega
      · cases hn : SlowDiv.ofCode (w % 16) with
        | none => trivial
        | some n =>
          simp [Decoded.ofOption, encodeNat, SlowDiv.code_of_ofCode hn, Instr.wellFormed]
          omega
    · trivial

theorem decodeType29_reads (hw : w / 65536 = 1) : (decodeType29 w).Reads w := by
  unfold decodeType29
  split <;> simp [encodeNat, Instr.wellFormed] <;> omega

theorem decodeType30_reads (hw : w / 65536 = 0) : (decodeType30 w).Reads w := by
  unfold decodeType30
  split
  · simp [encodeNat, Instr.wellFormed]
    omega
  · trivial

theorem decodeLow_reads (hhi : w < 1048576) : (decodeLow w).Reads w := by
  obtain ⟨t, ht⟩ : ∃ t, w / 65536 = t := ⟨_, rfl⟩
  have hlt : t < 16 := by omega
  unfold decodeLow
  rw [ht]
  interval_cases t
  · exact decodeType30_reads ht
  · exact decodeType29_reads ht
  · exact decodeType28_reads ht
  · exact decodeType27_reads ht
  · exact decodeType26_reads ht
  · exact decodeType25_reads ht
  · exact decodeType24_reads ht
  · exact decodeType23_reads ht
  · simp [encodeNat, Instr.wellFormed]
    omega
  · exact decodeType21_reads ht
  · exact decodeType20_reads ht
  · exact decodeType19_reads ht
  · exact decodeType18_reads ht
  · exact decodeType17_reads ht
  · exact decodeType16_reads ht
  · exact decodeType15_reads ht

/-- What a 24-bit word decodes to has that word: type by type, from the lowest numbers up. -/
theorem decodeNat_reads (hhi : w < 16777216) : (decodeNat w).Reads w := by
  rcases lt_or_ge w 1048576 with h | h0
  · exact decodeNat_low w h ▸ decodeLow_reads h
  rcases lt_or_ge w 1114112 with h | h1
  · exact decodeNat_type14 w h0 h ▸ decodeType14_reads h0 h
  rcases lt_or_ge w 1179648 with h | h2
  · exact decodeNat_type13 w h1 h ▸ decodeType13_reads h1 h
  rcases lt_or_ge w 1310720 with h | h3
  · exact decodeNat_type12 w h2 h ▸ decodeType12_reads h2 h
  rcases lt_or_ge w 1572864 with h | h4
  · rw [decodeNat_doUntil w h3 h]
    simp [encodeNat, Instr.wellFormed]
    omega
  rcases lt_or_ge w 2097152 with h | h5
  · exact decodeNat_type10 w h4 h ▸ decodeType10_reads h4 h
  rcases lt_or_ge w 2621440 with h | h6
  · exact decodeNat_type9 w h5 h ▸ decodeType9_reads h5 h
  rcases lt_or_ge w 3145728 with h | h7
  · exact decodeNat_type8 w h6 h ▸ decodeType8_reads h6 h
  rcases lt_or_ge w 4194304 with h | h8
  · exact decodeNat_type7 w h7 h ▸ decodeType7_reads h7 h
  rcases lt_or_ge w 5242880 with h | h9
  · rw [decodeNat_loadDregImm w h8 h]
    simp [encodeNat, Instr.wellFormed]
    omega
  rcases lt_or_ge w 6291456 with h | h10
  · exact decodeNat_type5 w h9 h ▸ decodeType5_reads h9 h
  rcases lt_or_ge w 8388608 with h | h11
  · exact decodeNat_type4 w h10 h ▸ decodeType4_reads h10 h
  rcases lt_or_ge w 10485760 with h | h12
  · exact decodeNat_type3 w h11 h ▸ decodeType3_reads h11 h
  rcases lt_or_ge w 12582912 with h | h13
  · rw [decodeNat_storeDmImm w h12 h]
    simp [encodeNat, Instr.wellFormed]
    omega
  exact decodeNat_type1 w h13 ▸ decodeType1_reads h13 hhi

end

/-- Settles O2: the fields a type's decoder reads, with the bits it requires, make up the word. -/
theorem encodeOfDecode : Obligations.EncodeOfDecode := by
  intro w i h
  have hr := decodeNat_reads w.isLt
  rw [show decodeNat w.toNat = .instr i from h] at hr
  obtain ⟨hwf, he⟩ := hr
  exact ⟨hwf, by rw [encode, he, BitVec.ofNat_toNat, BitVec.setWidth_eq]⟩

end Sys2Proof
end

section
/-!
PROOFS. The ALU instructions: each conditional one commits a function of the ALU, which gives what exact arithmetic gives; PASS
of a constant commits a value with open flags, NONE the flags alone, and a division step the shifted pair of AF and AY0
(40_alu.md R220 to R264).
-/

namespace Sys2Proof.Machine

/-! ### What an instruction commits -/

/-- A conditional instruction whose condition holds completes with its commit. -/
theorem completes_commitIf {i : Instr} {s : State} {c : Cond} {b : Bank} {a : BitVec 8} {P : State → Prop}
    (hc : s.cond c = true) (h : exec i s = s.doneIf c (s.commit b a)) (hp : P (s.advance (s.commit b a))) :
    Completes i s (fun t => RegFrame s t ∧ P t) :=
  completes_commit (h.trans (by rw [State.doneIf, if_pos hc, State.done])) hp

section
variable {i : Instr} {s : State} {z : Dest} {c : Cond} {x y r : Word}

/-- A conditional ALU function other than ABS gives what exact arithmetic gives. -/
theorem completes_alu (fn : AluFn) (hc : s.cond c = true) (h : exec i s = s.doneIf c (s.alu z fn x y))
    (hf : fn ≠ .abs := by decide) :
    Completes i s (fun t => RegFrame s t ∧ AluDone s t z (exactAlu fn x y s.carryIn)) :=
  completes_commitIf hc h (aluDone_of s _ z fn x y hf (advance_bank _ _) (by rw [advance_st]; rfl))

/-- Conditional ABS gives the magnitude of its X operand. -/
theorem completes_abs (hc : s.cond c = true) (h : exec i s = s.doneIf c (s.alu z .abs x y)) :
    Completes i s (fun t => RegFrame s t ∧ AbsDone s t z x) :=
  completes_commitIf hc h (absDone_of s _ z x y (advance_bank _ _) (by rw [advance_st]; rfl))

/-- The open flags are bits 0 to 3. -/
theorem openAstat_getLsbD_of_le (s : State) {k : Nat} (hk : 4 ≤ k) : s.openAstat.getLsbD k = s.st.astat.getLsbD k := by
  have hmask : (0x0F : BitVec 8).getLsbD k = false := by
    rw [show (0x0F : BitVec 8) = BitVec.ofNat 8 (2 ^ 4 - 1) from rfl, BitVec.getLsbD_ofNat, Nat.testBit_two_pow_sub_one]
    simp [Nat.not_lt.mpr hk]
  unfold State.openAstat
  rw [getLsbD_openBits, hmask]
  rfl

/-- Conditional PASS of a constant writes it unsaturated and leaves the four flags open (40_alu.md R241). -/
theorem completes_aluPassOpen (hc : s.cond c = true) (h : exec i s = s.doneIf c (s.aluPassOpen z r)) :
    Completes i s (fun t => RegFrame s t ∧ t.bank = aluBank s z (exactLogic r) ∧ SameAstatFrom s t 4) := by
  refine completes_commitIf hc h ⟨?_, fun k hk => ?_⟩
  · rw [advance_bank, commit_bank]
    cases z
    · simp [Bank.setAlu, aluBank, arValue, saturated, logic, exactLogic]
    · rfl
  · rw [advance_st, commit_st]
    exact openAstat_getLsbD_of_le s hk

end

/-! ### Type 9 -/

/-- Settles O13: each form is an addition of the ALU on its own operands. -/
theorem aluAdditions : Obligations.AluAdditions := by
  intro z x c s hc
  exact ⟨fun y => completes_alu .add hc rfl, fun y => completes_alu .addC hc rfl, fun k => completes_alu .add hc rfl,
    fun k => completes_alu .addC hc rfl, fun y => completes_alu .incY hc rfl, completes_alu .add hc rfl,
    completes_alu .addC hc rfl, completes_alu .incY hc rfl⟩

/-- Settles O14: each form is a subtraction of the ALU on its own operands. -/
theorem aluSubtractions : Obligations.AluSubtractions := by
  intro z x c s hc
  exact ⟨fun y => completes_alu .sub hc rfl, fun y => completes_alu .subBorrow hc rfl, fun k => completes_alu .sub hc rfl,
    fun k => completes_alu .subBorrow hc rfl, fun y => completes_alu .rsub hc rfl, fun y => completes_alu .rsubBorrow hc rfl,
    fun k => completes_alu .rsub hc rfl, fun k => completes_alu .rsubBorrow hc rfl, completes_alu .subBorrow hc rfl,
    completes_alu .rsub hc rfl, completes_alu .rsubBorrow hc rfl, fun y => completes_alu .negY hc rfl,
    fun k => completes_alu .negY hc rfl, fun y => completes_alu .decY hc rfl, completes_alu .decY hc rfl⟩

/-- Settles O15: each form is a logical function or PASS of the ALU on its own operands. -/
theorem aluLogicals : Obligations.AluLogicals := by
  intro z x c s hc
  exact ⟨completes_alu .passY hc rfl, completes_alu (y := 0) .notY hc rfl, fun y => completes_alu .passY hc rfl,
    fun y => completes_alu .notY hc rfl, fun y => completes_alu .notX hc rfl, fun y => completes_alu .and hc rfl,
    fun y => completes_alu .or hc rfl, fun y => completes_alu .xor hc rfl, fun k => completes_alu .and hc rfl,
    fun k => completes_alu .or hc rfl, fun k => completes_alu .xor hc rfl, fun k => completes_alu .notY hc rfl⟩

/-- Settles O16: ABS commits a function of the ALU, PASS of a constant the constant. -/
theorem aluAbsoluteAndPassConstants : Obligations.AluAbsoluteAndPassConstants := by
  intro z y x k c s hc
  exact ⟨completes_abs hc rfl, completes_aluPassOpen hc rfl, completes_aluPassOpen hc rfl, completes_aluPassOpen hc rfl⟩

/-! ### NONE -/

/-- ASTAT alone replaced is the commit of the bank as it is. -/
theorem setAstat_commit (s : State) (a : BitVec 8) : s.setAstat a = s.commit s.bank a := by
  unfold State.commit State.setBank State.bank
  split <;> rfl

/-- The flags of an ALU function, whether or not AR_SAT bears on them. -/
theorem aluAstat_gives (s t : State) (sat : Bool) (fn : AluFn) (x y : Word) (ht : t.st.astat = s.aluAstat sat fn x y) :
    AluFlags s t sat (exactAlu fn x y s.carryIn) ∧
      (if fn = .abs then astatAS t.st.astat = x.getLsbD 15 ∧ SameAstatFrom s t 5 else SameAstatFrom s t 4) := by
  by_cases hf : fn = .abs
  · subst hf
    exact absFlags_of s t sat x y ht
  · rw [if_neg hf]
    exact aluFlags_gives (aluOut_gives s fn x y) s t sat (ht.trans (aluAstat_eq s sat hf x y))

/-- Settles O17: NONE commits the flags of the function and the bank as it is. -/
theorem aluNoneFlags : Obligations.AluNoneFlags := by
  intro fn y x s
  refine completes_commit (b := s.bank) (a := s.aluAstat false fn (s.bank.aluX x) (s.bank.aluY y)) ?_ ⟨?_, ?_⟩
  · rw [← setAstat_commit]
    rfl
  · rw [advance_bank, commit_bank]
  · exact aluAstat_gives s _ false fn _ _ (by rw [advance_st, commit_st])

/-! ### Division -/

/-- A bit below a word shifted left by one is added to it as its lowest bit. -/
theorem shiftLeft_one_add_bit {w : Nat} (v : BitVec w) (q : Bool) :
    v <<< 1 + BitVec.ofNat w q.toNat = v <<< 1 ||| BitVec.ofNat w q.toNat := by
  refine BitVec.add_eq_or_of_and_eq_zero _ _ (BitVec.eq_of_getLsbD_eq fun k _ => ?_)
  simp only [BitVec.getLsbD_and, BitVec.getLsbD_shiftLeft, BitVec.getLsbD_ofNat, Nat.testBit_bool_toNat]
  by_cases h0 : k = 0 <;> simp [h0]

/-- The pair of AF and AY0 after a division step is the remainder over AY0, shifted left by one, with the quotient bit below. -/
theorem divShift_pair (b : Bank) (r : Word) (q : Bool) :
    (b.divShift r q).af ++ (b.divShift r q).ay0 = ((r ++ b.ay0) <<< 1) + BitVec.ofNat 32 q.toNat := by
  rw [shiftLeft_one_add_bit]
  refine BitVec.eq_of_getLsbD_eq fun k hk => ?_
  have hk' : k < 32 := hk
  simp only [Bank.divShift, BitVec.getLsbD_append, BitVec.getLsbD_or, BitVec.getLsbD_shiftLeft, BitVec.getLsbD_ushiftRight,
    BitVec.getLsbD_ofNat, Nat.testBit_bool_toNat]
  rcases lt_trichotomy k 16 with h | rfl | h
  · by_cases h0 : k = 0
    · simp [h0]
    · simp [h, h0, hk', show k - 1 < 16 by omega]
  · simp
  · have hout : b.ay0.getLsbD (15 + (k - 16)) = false := BitVec.getLsbD_of_ge _ _ (by omega)
    have hsub : k - 16 - 1 = k - 1 - 16 := by omega
    simp [hout, hsub, hk', show ¬k < 16 by omega, show ¬k - 1 < 16 by omega, show k ≠ 0 by omega, show k - 16 ≠ 0 by omega,
      show k - 16 < 16 by omega]

/-- `putBit` leaves the other bits. -/
theorem getLsbD_putBit_of_ne {w : Nat} (v : BitVec w) {j k : Nat} (b : Bool) (h : j ≠ k) :
    (putBit v k b).getLsbD j = v.getLsbD j := by
  rw [getLsbD_putBit, if_neg fun hk => h hk.1]

theorem astatAQ_putBit (a : BitVec 8) (q : Bool) : astatAQ (putBit a 5 q) = q := by
  rw [astatAQ, getLsbD_putBit, if_pos (by decide)]

/-- What a division step commits: the pair shifted, AQ, and no other register or flag (40_alu.md R258, R259). -/
theorem advance_divShift (s : State) (r : Word) (q aq : Bool) :
    let t := s.advance (s.commit (s.bank.divShift r q) (putBit s.st.astat 5 aq))
    t.bank.af ++ t.bank.ay0 = ((r ++ s.bank.ay0) <<< 1) + BitVec.ofNat 32 q.toNat ∧
      t.bank = { s.bank with af := t.bank.af, ay0 := t.bank.ay0 } ∧ astatAQ t.st.astat = aq ∧
      ∀ k, k ≠ 5 → t.st.astat.getLsbD k = s.st.astat.getLsbD k := by
  simp only [advance_bank, commit_bank, advance_st, commit_st]
  exact ⟨divShift_pair _ _ _, rfl, astatAQ_putBit _ _, fun k hk => getLsbD_putBit_of_ne _ _ hk⟩

theorem exec_divq_inLoop (x : Xop) {s : State} (h : s.inLoop = true) : exec (.divq x) s = s.done s.divqOpen :=
  congrArg s.done (if_pos h)

/-- The quotient bit of a DIVQ outside a loop is the complement of AQ. -/
theorem exec_divq_outside (x : Xop) {s : State} (h : ¬s.inLoop = true) :
    let r := s.divRem (s.bank.aluX x)
    exec (.divq x) s = s.done (s.commit (s.bank.divShift r ((s.bank.aluX x).getLsbD 15 == r.getLsbD 15))
      (putBit s.st.astat 5 ((s.bank.aluX x).getLsbD 15 != r.getLsbD 15))) := by
  have hcompl : ∀ a b : Bool, (a == b) = !(a ^^ b) := by decide
  refine congrArg s.done ((if_neg h).trans ?_)
  simp only [hcompl]
  rfl

/-- Settles O18: DIVS and a DIVQ outside a loop commit the shifted pair, a DIVQ inside one AF, AY0 and AQ at any value. -/
theorem division : Obligations.Division := by
  intro x s
  refine ⟨fun y => completes_commit rfl (advance_divShift s _ _ _), ?_⟩
  by_cases hl : s.inLoop = true
  · refine completes_commit (exec_divq_inLoop x hl) ?_
    simp only [hl, if_true, advance_bank, commit_bank, advance_st, commit_st, true_and]
    exact fun k hk => getLsbD_putBit_of_ne _ _ hk
  · refine completes_commit (exec_divq_outside x hl) ?_
    simp only [hl]
    exact advance_divShift s (s.divRem (s.bank.aluX x)) _ _

end Sys2Proof.Machine
end

section
/-!
PROOFS. The MAC instructions: each conditional one commits a function of the MAC, which gives what exact arithmetic gives; the
clearing and the transfers are multiplications whose Y operand is zero; SAT MR commits the full scale (41_mac.md R280 to R293).
-/

namespace Sys2Proof.Machine

/-! ### Type 9 -/

/-- A conditional MAC function gives what exact arithmetic gives. -/
theorem completes_mac {i : Instr} {s : State} {z : Dest} {c : Cond} {x y : Word} (fn : MacFn) (hc : s.cond c = true)
    (h : exec i s = s.doneIf c (s.mac z fn x y)) : Completes i s (fun t => RegFrame s t ∧ MacFnDone s t z fn x y) :=
  completes_commitIf hc h (macFnDone_of s _ z fn x y (advance_bank _ _) (by rw [advance_st]; rfl))

/-- A zero Y operand makes the product zero, by which a multiplication clears or transfers (41_mac.md R291, R292). -/
theorem toInt_mul_zeroWord (x : Word) : x.toInt * (0 : Word).toInt = 0 := mul_zero x.toInt

/-- Settles O20: each form is an unrounded function of the MAC on its own operands, clear and transfer on a zero Y operand. -/
theorem macProducts : Obligations.MacProducts := by
  intro z x c s hc
  have hclear := completes_mac (i := .macZero z x c) (x := s.bank.macX x) (y := 0) .mulSS hc rfl
  have hcopy := completes_mac (i := .macCopy z x c) (x := s.bank.macX x) (y := 0) .addSS hc rfl
  simp only [MacFnDone, toInt_mul_zeroWord] at hclear hcopy
  exact ⟨hclear, hcopy, completes_mac .mulSS hc rfl, completes_mac .addSS hc rfl, completes_mac .subSS hc rfl,
    completes_mac .mulUU hc rfl, completes_mac .addUU hc rfl, completes_mac .subUU hc rfl,
    fun y => completes_mac .mulSS hc rfl, fun y => completes_mac .addSS hc rfl, fun y => completes_mac .subSS hc rfl,
    fun y => completes_mac .mulSU hc rfl, fun y => completes_mac .addSU hc rfl, fun y => completes_mac .subSU hc rfl,
    fun y => completes_mac .mulUS hc rfl, fun y => completes_mac .addUS hc rfl, fun y => completes_mac .subUS hc rfl,
    fun y => completes_mac .mulUU hc rfl, fun y => completes_mac .addUU hc rfl, fun y => completes_mac .subUU hc rfl⟩

/-- Settles O21: each form is a rounded function of the MAC on its own operands, the rounding of MR on a zero Y operand. -/
theorem macRoundings : Obligations.MacRoundings := by
  intro z x c s hc
  have hround := completes_mac (i := .macRnd z x c) (x := s.bank.macX x) (y := 0) .addRnd hc rfl
  simp only [MacFnDone, toInt_mul_zeroWord] at hround
  exact ⟨hround, completes_mac .mulRnd hc rfl, completes_mac .addRnd hc rfl, completes_mac .subRnd hc rfl,
    fun y => completes_mac .mulRnd hc rfl, fun y => completes_mac .addRnd hc rfl, fun y => completes_mac .subRnd hc rfl⟩

/-! ### SAT MR -/

/-- The condition of SAT MR is the MV bit of ASTAT. -/
theorem cond_mv (s : State) : s.cond .mv = astatMV s.st.astat := rfl

/-- SAT MR writes only the three parts of MR. -/
theorem satMr_others (b : Bank) :
    b.satMr = { b with mr0 := b.satMr.mr0, mr1 := b.satMr.mr1, mr2 := b.satMr.mr2 } := by
  unfold Bank.satMr
  split <;> rfl

/-- The parts of the negative full scale, as one word. -/
theorem minFullScale_parts : (0xFF : BitVec 8) ++ (0x8000 : Word) ++ (0x0000 : Word) = (0xFF80000000 : BitVec 40) := by decide

/-- The parts of the positive full scale, as one word. -/
theorem maxFullScale_parts : (0x00 : BitVec 8) ++ (0x7FFF : Word) ++ (0xFFFF : Word) = (0x007FFFFFFF : BitVec 40) := by decide

/-- MR saturated is the 32-bit full scale of the sign of MR2. -/
theorem satMr_mr (b : Bank) : b.satMr.mr = if b.mr2.getLsbD 7 then 0xFF80000000 else 0x007FFFFFFF := by
  unfold Bank.satMr
  split
  · exact minFullScale_parts
  · exact maxFullScale_parts

/-- Settles O22: under MV, SAT MR commits the bank with MR saturated and ASTAT as it is; without MV it is a NOP. -/
theorem saturateMr : Obligations.SaturateMr := by
  refine ⟨by decide, fun s => ?_⟩
  rw [← cond_mv]
  refine ⟨fun hmv => ?_, fun hmv => doneIf_of_false hmv _⟩
  have hexec : exec .satMr s = s.doneIf .mv (s.commit s.bank.satMr s.st.astat) := by
    rw [← setBank_commit]
    rfl
  refine completes_commitIf hmv hexec ?_
  simp only [advance_st, commit_st, advance_bank, commit_bank, true_and]
  exact ⟨satMr_others s.bank, satMr_mr s.bank⟩

end Sys2Proof.Machine
end

section
/-!
PROOFS. The shifter instructions: a shift writes SR as the shifter array gives it, bit by bit; EXP commits SE and SS, or SE alone,
and EXPADJ SB, by the count of the leading bits that are equal (42_shifter.md R320 to R331).
-/

namespace Sys2Proof.Machine

/-! ### Shift immediate -/

/-- The layout of Type 15: the function, the X operand and the control code below nine fixed bits (30_encoding.md R181). -/
def shiftImmWord (sf : BitVec 4) (x : ShXop) (e : BitVec 8) : PmWord := 0b000011110#9 ++ sf ++ BitVec.ofNat 3 x.code ++ e

theorem shiftImmWord_toNat (sf : BitVec 4) (x : ShXop) (e : BitVec 8) :
    (shiftImmWord sf x e).toNat = 0x0F0000 + sf.toNat * 2048 + x.code * 256 + e.toNat := by
  have hx : x.code < 8 := by cases x <;> decide
  rw [shiftImmWord, toNat_append_eq_add, toNat_append_eq_add, toNat_append_eq_add, BitVec.toNat_ofNat, BitVec.toNat_ofNat]
  omega

/-- A well-formed instruction whose number is laid out as Type 15 is what the word of that layout decodes to. -/
theorem decode_shiftImmWord {i : Instr} {sf : BitVec 4} {x : ShXop} {e : BitVec 8} (hwf : i.wellFormed = true)
    (h : encodeNat i = 0x0F0000 + sf.toNat * 2048 + x.code * 256 + e.toNat) : decode (shiftImmWord sf x e) = .instr i := by
  have hword : encode i = shiftImmWord sf x e := by
    rw [encode, h, ← shiftImmWord_toNat, BitVec.ofNat_toNat, BitVec.setWidth_eq]
  exact hword ▸ decodeOfEncode i hwf

/-- An instruction that puts the shifter array's output into SR gives every bit of it by its place. -/
theorem completes_shiftOut {i : Instr} {s : State} {orSr hi ext : Bool} {v : Word} {k : Int}
    (h : exec i s = s.done (s.shiftOut orSr (shiftArray v k hi ext))) :
    Completes i s (fun t => RegFrame s t ∧ ShiftDone s t orSr v (k + if hi then 16 else 0) ext) := by
  have hcommit : exec i s = .next (s.advance (s.commit (s.bank.setSr orSr (shiftArray v k hi ext)) s.st.astat)) :=
    h.trans (congrArg s.done (setBank_commit s _))
  refine completes_commit hcommit (shiftDone_of s _ orSr v k hi ext ?_ ?_)
  · rw [advance_bank, commit_bank, State.shiftOut, setBank_bank]
  · rw [advance_st, commit_st]

/-- A form of shift immediate, by its word and by its effect. -/
theorem shiftImm_gives {i : Instr} {sf : BitVec 4} {x : ShXop} {e : BitVec 8} {s : State} {orSr hi ext : Bool} {v : Word}
    (hwf : i.wellFormed = true) (hword : encodeNat i = 0x0F0000 + sf.toNat * 2048 + x.code * 256 + e.toNat)
    (hexec : exec i s = s.done (s.shiftOut orSr (shiftArray v e.toInt hi ext))) :
    decode (shiftImmWord sf x e) = .instr i ∧
      Completes i s (fun t => RegFrame s t ∧ ShiftDone s t orSr v (e.toInt + if hi then 16 else 0) ext) :=
  ⟨decode_shiftImmWord hwf hword, completes_shiftOut hexec⟩

/-- Settles O23: each form has the word of its function code, and puts the shifter array's output for the code `e` into SR. -/
theorem shiftImmediates : Obligations.ShiftImmediates := fun _ _ _ =>
  ⟨shiftImm_gives rfl rfl rfl, shiftImm_gives rfl rfl rfl, shiftImm_gives rfl rfl rfl, shiftImm_gives rfl rfl rfl,
    shiftImm_gives rfl rfl rfl, shiftImm_gives rfl rfl rfl, shiftImm_gives rfl rfl rfl, shiftImm_gives rfl rfl rfl⟩

/-! ### Conditional shifts -/

section
variable {i : Instr} {s t : State} {c : Cond} {fn : ShiftFn} {x : ShXop} {v : Word} {n : Nat}

/-- A conditional shifter function whose condition holds changes the bank and ASTAT as the function does, and nothing else. -/
theorem completes_shiftReg {P : State → Prop} (hc : s.cond c = true) (h : exec i s = s.doneIf c (s.shiftReg fn x))
    (hp : ∀ t : State, t.bank = (s.shiftReg fn x).bank → t.st.astat = (s.shiftReg fn x).st.astat → P t) :
    Completes i s (fun t => RegFrame s t ∧ P t) :=
  completes_commitIf hc (h.trans (congrArg (s.doneIf c) (shiftReg_committed s fn x)))
    (hp _ (by rw [advance_bank, commit_bank]) (by rw [advance_st, commit_st]))

/-- A conditional shift by the control code `k` puts the operand `p` bits up, `p` counted from the low end of SR. -/
theorem completes_shiftBy {orSr hi ext : Bool} {p k : Int} (hc : s.cond c = true)
    (h : exec i s = s.doneIf c (s.shiftReg fn x))
    (hfn : s.shiftReg fn x = s.shiftOut orSr (shiftArray (s.bank.shX x) k hi ext))
    (hp : p = k + if hi then 16 else 0 := by simp) :
    Completes i s (fun t => RegFrame s t ∧ ShiftDone s t orSr (s.bank.shX x) p ext ∧ t.bank = (s.shiftReg fn x).bank) := by
  refine completes_shiftReg hc h fun t hb ha => ⟨?_, hb⟩
  rw [hfn] at hb ha
  exact hp ▸ shiftDone_of s t orSr _ k hi ext hb (ha.trans (by rw [State.shiftOut, setBank_st]))

/-- Settles O24: LSHIFT and ASHIFT take SE as their control code, NORM its negation. -/
theorem shiftsBySe : Obligations.ShiftsBySe := fun _ _ _ hc =>
  ⟨completes_shiftBy hc rfl rfl, completes_shiftBy hc rfl rfl, completes_shiftBy hc rfl rfl, completes_shiftBy hc rfl rfl,
    completes_shiftBy hc rfl rfl, completes_shiftBy hc rfl rfl, completes_shiftBy hc rfl rfl, completes_shiftBy hc rfl rfl,
    completes_shiftBy hc rfl rfl, completes_shiftBy hc rfl rfl, completes_shiftBy hc rfl rfl, completes_shiftBy hc rfl rfl⟩

/-! ### Exponents -/

/-- A state whose bank and ASTAT are those after SE and SS were written. -/
theorem expDone_of_setSeSs {e : Int} {ss : Bool} (hb : t.bank = (s.setSeSs (BitVec.ofInt 8 e) ss).bank)
    (ha : t.st.astat = (s.setSeSs (BitVec.ofInt 8 e) ss).st.astat) : ExpDone s t e ss := by
  rw [setSeSs_commit] at hb ha
  exact expDone_of s t e ss (hb.trans (commit_bank _ _ _)) (ha.trans (by rw [commit_st]))

/-- EXP (HI) of a word with `n` redundant sign bits. -/
theorem expDone_of_expHi (hn : RedundantSigns v n) (hb : t.bank = (s.expHi v).bank)
    (ha : t.st.astat = (s.expHi v).st.astat) : ExpDone s t (-(n : Int)) (v.getLsbD 15) := by
  rw [State.expHi, expHiOf_redundant v n hn] at hb ha
  exact expDone_of_setSeSs hb ha

/-- EXP (HIX) of a word with `n` redundant sign bits: AV decides between the overflowed result and EXP (HI). -/
theorem expDone_of_expHix (hn : RedundantSigns v n) (hb : t.bank = (s.expHix v).bank)
    (ha : t.st.astat = (s.expHix v).st.astat) :
    if astatAV s.st.astat then ExpDone s t 1 (!v.getLsbD 15) else ExpDone s t (-(n : Int)) (v.getLsbD 15) := by
  unfold State.expHix at hb ha
  split
  case isTrue hav =>
    rw [if_pos hav] at hb ha
    exact expDone_of_setSeSs hb ha
  case isFalse hav =>
    rw [if_neg hav] at hb ha
    exact expDone_of_expHi hn hb ha

/-- EXPADJ leaves in SB the greater of SB and the exponent. -/
theorem expAdj_bank (s : State) (v : Word) :
    (s.expAdj v).bank = { s.bank with sb := BitVec.ofInt 5 (max s.bank.sb.toInt (expHiOf v)) } := by
  unfold State.expAdj
  split
  case isTrue h => rw [setBank_bank, max_eq_right h.le]
  case isFalse h => rw [max_eq_left (not_lt.mp h), BitVec.ofInt_toInt]

theorem expAdj_st (s : State) (v : Word) : (s.expAdj v).st = s.st := by
  unfold State.expAdj
  split
  · exact setBank_st _ _
  · rfl

/-- The greater of SB and minus a number of redundant sign bits fits in SB. -/
theorem toInt_ofInt_max_sb (sb : BitVec 5) (hn : n ≤ 15) :
    (BitVec.ofInt 5 (max sb.toInt (-(n : Int)))).toInt = max sb.toInt (-(n : Int)) := by
  have hlo := BitVec.le_toInt sb
  have hhi := BitVec.toInt_lt (x := sb)
  exact BitVec.toInt_ofInt_eq_self (by decide) (by omega) (by omega)

/-- EXP (LO) leaves every register but SE, which goes on from -15 by the leading bits that equal SS. -/
theorem expLo_bank (s : State) (v : Word) :
    (s.expLo v).bank =
      if s.bank.se.toInt = -15 then { s.bank with se := BitVec.ofInt 8 (expLoOf v (astatSS s.st.astat)) } else s.bank := by
  unfold State.expLo
  split
  · exact setBank_bank _ _
  · rfl

theorem expLo_st (s : State) (v : Word) : (s.expLo v).st = s.st := by
  unfold State.expLo
  split
  · exact setBank_st _ _
  · rfl

/-- The exponent of a low word is -15 less the number of bits, from the top, that equal `ss` (42_shifter.md R324). -/
theorem expLoOf_spec (v : Word) (ss : Bool) : ∃ n : Nat, n ≤ 16 ∧ expLoOf v ss = -15 - (n : Int) ∧
    (∀ k, k < n → v.getLsbD (15 - k) = ss) ∧ (n < 16 → v.getLsbD (15 - n) = !ss) := by
  obtain ⟨hle, hequal, hnext⟩ := leadFrom_spec v ss 16
  exact ⟨lead v ss, hle, neg_add' 15 _, hequal, hnext⟩

end

/-- Settles O25: EXP commits SE and SS, EXPADJ SB and EXP (LO) SE, each by the count of the leading equal bits. -/
theorem exponents : Obligations.Exponents := by
  intro x c s hc
  refine ⟨fun n hn => ⟨?_, ?_, ?_⟩, ?_⟩
  · exact completes_shiftReg hc rfl fun t hb ha => ⟨expDone_of_expHi hn hb ha, hb, ha⟩
  · exact completes_shiftReg hc rfl fun t hb ha => ⟨⟨hb, ha⟩, expDone_of_expHix hn hb ha⟩
  · refine completes_shiftReg hc rfl fun t hb ha => ⟨?_, ⟨hb, ha⟩, ?_⟩
    · exact ha.trans (congrArg _ (expAdj_st s _))
    · have hbank := hb.trans (expAdj_bank s _)
      rw [expHiOf_redundant _ n hn] at hbank
      obtain ⟨hle, -⟩ := hn
      rw [hbank]
      exact ⟨rfl, toInt_ofInt_max_sb s.bank.sb hle⟩
  · refine completes_shiftReg hc rfl fun t hb ha => ⟨?_, ⟨hb, ha⟩, ?_⟩
    · exact ha.trans (congrArg _ (expLo_st s _))
    · have hbank := hb.trans (expLo_bank s _)
      split
      case isTrue hse =>
        obtain ⟨n, hn, hexp, hequal, hnext⟩ := expLoOf_spec (s.bank.shX x) (astatSS s.st.astat)
        rw [if_pos hse, hexp] at hbank
        exact ⟨n, hn, hbank, hequal, hnext⟩
      case isFalse hse => rwa [if_neg hse] at hbank

end Sys2Proof.Machine
end

section
/-!
PROOFS. The moves: reads and writes of Data Memory alone and beside a computation, the loads of a register, and I/O space
(43_move.md R360 to R372; 46_multifunction.md R492 to R495; 20_memory.md R103, R118).
-/

namespace Sys2Proof.Machine

/-! ### Data Memory reads -/

section
variable (s : State) (b : Bank) (a : BitVec 8) (g : Dag) (p : BitVec 8) (m : Memory)

theorem moved_dag : (s.moved b a g p m).dag = g := rfl
theorem moved_px : (s.moved b a g p m).px = p := rfl
theorem moved_mem : (s.moved b a g p m).mem = m := rfl

theorem moved_lat : (s.moved b a g p m).lat = s.lat := by
  unfold State.moved
  rw [commit_eq]

end

theorem moved_self (s : State) : s.moved s.bank s.st.astat s.dag s.px s.mem = s := by
  unfold State.moved
  rw [commit_self]

/-- An instruction that reaches the active bank, ASTAT, the DAG registers and PX alone. -/
theorem completes_moved {j : Instr} {s : State} {b : Bank} {a : BitVec 8} {g : Dag} {p : BitVec 8} {P : Bank → Prop}
    (hj : exec j s = s.done (s.moved b a g p s.mem)) (hb : P b) :
    Completes j s (fun t => ComputeFrame s t ∧ SameMem s t ∧ t.px = p ∧ t.dag = g ∧ t.st.astat = a ∧ P t.bank) := by
  refine ⟨_, hj, moved_computeFrame s _ _ _ _ _, fun c => ?_, ?_, ?_, ?_, ?_⟩
  · rw [advance_mem, moved_mem]
  · rw [advance_px, moved_px]
  · rw [advance_dag, moved_dag]
  · rw [advance_st, moved_st]
  · rwa [advance_bank, moved_bank]

/-- A Data Memory read beside a computation. -/
theorem dmReadTo_moved {s u : State} (hu : Committed s u) (clash g : Bool) (d : Dreg) (i m : BitVec 2) :
    ∃ b, s.dmReadTo u clash g d i m = s.moved b u.st.astat (s.post g i m).dag s.px s.mem ∧
      Loaded u.bank b clash d (s.readDm (s.addr g i)) := by
  have hp : u.post g i m = s.moved u.bank u.st.astat (s.post g i m).dag s.px s.mem := by
    rw [hu, commit_post, commit_bank, commit_st]
  obtain ⟨b, hb, hl⟩ := loadBeside_loaded (u.post g i m) clash d (s.readDm (s.addr g i))
  rw [hp, moved_bank] at hl
  refine ⟨b, ?_, hl⟩
  rw [State.dmReadTo, hb, hp, moved_setBank]

/-- An instruction that reads Data Memory beside a computation that gave `u`. -/
theorem completes_dmReadTo {j : Instr} {s u : State} (hu : Committed s u) {clash g : Bool} {d : Dreg} {i m : BitVec 2}
    (hj : exec j s = s.done (s.dmReadTo u clash g d i m)) :
    Completes j s (fun t => ComputeFrame s t ∧ SameMem s t ∧ t.px = s.px ∧ t.dag = (s.post g i m).dag ∧
      t.st.astat = u.st.astat ∧ Loaded u.bank t.bank clash d (s.readDm (s.addr g i))) := by
  obtain ⟨b, hb, hl⟩ := dmReadTo_moved hu clash g d i m
  rw [hb] at hj
  exact completes_moved (P := (Loaded u.bank · clash d _)) hj hl

/-- Settles O27: the read alone is the read beside a computation that leaves the state as it is. -/
theorem loadsFromDm : Obligations.LoadsFromDm := fun _ z cp fn x _ _ _ s =>
  ⟨completes_dmReadTo (committed_self s) rfl, completes_dmReadTo (compute_committed s z cp) rfl,
    completes_dmReadTo (shiftReg_committed s fn x) rfl⟩

/-! ### Data Memory writes -/

theorem onlyFlow_sameDevices {s t : State} (h : OnlyFlow s t) : SameDevices s t := by
  unfold OnlyFlow at h
  rw [h]
  constructor <;> rfl

/-- A control register write other than of SPORT1 Autobuffer Control and TCOUNT notes nothing. -/
theorem writeMmr_lat_other (s : State) {k : Nat} (v : Word) (hp : k ≠ 15) (ht : k ≠ 28) :
    (s.writeMmr k v).lat = s.lat := by
  unfold State.writeMmr State.writeBdmaAddr State.writeBwcount State.writeSysCtl
  split
  case h_8 => split <;> rfl
  case h_9 => exact absurd rfl hp
  case h_22 => exact absurd rfl ht
  all_goals rfl

/-- What a control register write notes: PDFORCE and the write of TCOUNT. -/
theorem writeMmr_notes (s : State) (k : Nat) (v : Word) :
    (s.writeMmr k v).lat.pdNew = (s.lat.pdNew || (decide (k = 15) && v.getLsbD 13)) ∧
      (s.writeMmr k v).lat.tcountSet = (s.lat.tcountSet || decide (k = 28)) := by
  by_cases hp : k = 15
  · subst hp
    exact ⟨rfl, (Bool.or_false _).symm⟩
  by_cases ht : k = 28
  · subst ht
    exact ⟨(Bool.or_false _).symm, (Bool.or_true _).symm⟩
  rw [writeMmr_lat_other s v hp ht, decide_eq_false hp, decide_eq_false ht, Bool.false_and, Bool.or_false, Bool.or_false]
  exact ⟨rfl, rfl⟩

/-- A Data Memory write leaves, but for memory, what a control register write leaves. -/
theorem writeDm_frame (s : State) (a : Addr) (v : Word) :
    MmrFrame { s with mem := (s.writeDm a v).mem } (s.writeDm a v) := by
  unfold State.writeDm
  split
  case isTrue =>
    have h := writeMmr_frame s (a.toNat - 0x3FE0) v
    rw [h.mem]
    exact h
  case isFalse =>
    rw [writeRam_eq]
    constructor <;> rfl

theorem writeDm_secReg (s : State) (a : Addr) (v : Word) : (s.writeDm a v).secReg = s.secReg := by
  rw [State.secReg, writeDm_st]
  rfl

section
variable (s : State) (pri sec : Bank) (a : BitVec 8) (g : Dag) (p : BitVec 8)

/-- `s` with other values of all that a computation and a move reach but memory. -/
def State.withRegs : State := { s with pri := pri, sec := sec, st := { s.st with astat := a }, dag := g, px := p }

theorem writeMmr_withRegs (k : Nat) (v : Word) :
    (s.withRegs pri sec a g p).writeMmr k v = (s.writeMmr k v).withRegs pri sec a g p := by
  unfold State.writeMmr State.writeBdmaAddr State.writeBwcount State.writeSysCtl
  split
  case h_8 =>
    unfold State.withRegs
    dsimp only
    split <;> rfl
  all_goals rfl

theorem writeRam_withRegs (c : Addr) (v : Word) :
    (s.withRegs pri sec a g p).writeRam c v = (s.writeRam c v).withRegs pri sec a g p := by
  have hloc : (s.withRegs pri sec a g p).dmLoc (s.withRegs pri sec a g p).st.dmovlay c = s.dmLoc s.st.dmovlay c := rfl
  unfold State.writeRam
  rw [hloc]
  cases s.dmLoc s.st.dmovlay c <;> rfl

/-- A Data Memory write reads none of the registers a computation and a move beside it reach. -/
theorem writeDm_withRegs (c : Addr) (v : Word) :
    (s.withRegs pri sec a g p).writeDm c v = (s.writeDm c v).withRegs pri sec a g p := by
  unfold State.writeDm
  split
  · exact writeMmr_withRegs s pri sec a g p _ v
  · exact writeRam_withRegs s pri sec a g p c v

variable (b : Bank)

theorem moved_withRegs : s.moved b a g p s.mem = s.withRegs (s.commit b a).pri (s.commit b a).sec a g p := by
  unfold State.moved
  rw [commit_eq]
  rfl

theorem writeDm_moved (c : Addr) (v : Word) :
    (s.moved b a g p s.mem).writeDm c v = (s.writeDm c v).moved b a g p (s.writeDm c v).mem := by
  have hf := writeDm_frame s c v
  obtain ⟨hpri, hsec⟩ : ((s.writeDm c v).commit b a).pri = (s.commit b a).pri ∧
      ((s.writeDm c v).commit b a).sec = (s.commit b a).sec := by
    unfold State.commit State.setBank
    rw [writeDm_secReg]
    split
    · exact ⟨hf.pri, rfl⟩
    · exact ⟨rfl, hf.sec⟩
  rw [moved_withRegs, moved_withRegs, writeDm_withRegs, hpri, hsec]

end

/-- A Data Memory write beside a computation. -/
theorem dmWriteOf_moved {s u : State} (hu : Committed s u) (g : Bool) (v : Word) (i m : BitVec 2) :
    s.dmWriteOf u g v i m = (s.writeDm (s.addr g i) v).moved u.bank u.st.astat (s.post g i m).dag s.px
      (s.writeDm (s.addr g i) v).mem := by
  rw [State.dmWriteOf, hu, commit_post, commit_bank, commit_st, writeDm_moved]

/-- The control register an address of Data Memory names. -/
theorem addr_eq_iff_mmr {c : Addr} (hc : 0x3FE0 ≤ c.toNat) {k : Addr} (hk : 0x3FE0 ≤ k.toNat) :
    c = k ↔ c.toNat - 0x3FE0 = k.toNat - 0x3FE0 := by
  rw [← BitVec.toNat_inj]
  omega

/-- What a Data Memory write notes: PDFORCE at 0x3FEF, the write of TCOUNT at 0x3FFC (60_exceptions.md R550, R560). -/
theorem writeDm_notes (s : State) (c : Addr) (v : Word) :
    (s.writeDm c v).lat.pdNew = (s.lat.pdNew || (decide (c = 0x3FEF) && v.getLsbD 13)) ∧
      (s.writeDm c v).lat.tcountSet = (s.lat.tcountSet || decide (c = 0x3FFC)) := by
  unfold State.writeDm
  split
  next hc =>
    simp only [addr_eq_iff_mmr hc (k := 0x3FEF) (by decide), addr_eq_iff_mmr hc (k := 0x3FFC) (by decide)]
    exact writeMmr_notes s _ v
  next hc =>
    have hpd : c ≠ 0x3FEF := fun h => hc (by rw [h]; decide)
    have htc : c ≠ 0x3FFC := fun h => hc (by rw [h]; decide)
    rw [writeRam_eq, decide_eq_false hpd, decide_eq_false htc, Bool.false_and, Bool.or_false, Bool.or_false]
    exact ⟨rfl, rfl⟩

theorem writeRam_sameDevices (s : State) (c : Addr) (v : Word) : SameDevices s (s.writeRam c v) := by
  rw [writeRam_eq]
  constructor <;> rfl

/-- A word written below the control registers: its two bytes read as written and the others as before. -/
theorem writeRam_stored {s t : State} (h : Memory.wf s.mem = true) (c : Addr) (v : Word)
    (hm : t.mem = (s.writeRam c v).mem) :
    match s.dmLoc s.st.dmovlay c with
    | some l => memGet16 t.mem l.base = v ∧ SameMemBut s t l.base 2
    | none => SameMem s t := by
  unfold State.writeRam at hm
  cases hl : s.dmLoc s.st.dmovlay c with
  | none =>
    rw [hl] at hm
    exact fun k => by rw [hm]
  | some l =>
    rw [hl] at hm
    dsimp only at hm ⊢
    rw [hm]
    refine ⟨memGet16_memSet16 h _ _, fun k hk => ?_⟩
    rw [hm, memGet_memSet16_other _ _ (by omega)]

/-- A state that takes from a Data Memory write its memory, its devices and what it notes. -/
theorem writeDm_stored {s t : State} (h : Memory.wf s.mem = true) (c : Addr) (v : Word)
    (hm : t.mem = (s.writeDm c v).mem) (hp : t.lat.pdNew = (s.writeDm c v).lat.pdNew)
    (ht : t.lat.tcountSet = (s.writeDm c v).lat.tcountSet) (hd : SameDevices (s.writeDm c v) t) : StoredDm s t c v := by
  obtain ⟨hpd, htc⟩ := writeDm_notes s c v
  refine ⟨hp.trans hpd, ht.trans htc, ?_⟩
  unfold State.writeDm at hm hd
  split
  next hc =>
    rw [if_pos hc] at hm hd
    exact ⟨fun k => by rw [hm, (writeMmr_frame _ _ _).mem], hd⟩
  next hc =>
    rw [if_neg hc] at hm hd
    exact ⟨(writeRam_sameDevices s c v).trans hd, writeRam_stored h c v hm⟩

/-- An instruction that writes Data Memory beside the replacement of the active bank, ASTAT and the DAG registers. -/
theorem completes_writeDm {j : Instr} {s : State} (hm : Memory.wf s.mem = true) {c : Addr} {v : Word} {b : Bank}
    {a : BitVec 8} {g : Dag} (hj : exec j s = s.done ((s.writeDm c v).moved b a g s.px (s.writeDm c v).mem)) :
    Completes j s (fun t => StoreFrame s t ∧ t.bank = b ∧ t.st.astat = a ∧ t.dag = g ∧ StoredDm s t c v) := by
  have hw := writeDm_frame s c v
  have hf := moved_flowEq (s.writeDm c v) b a g s.px (s.writeDm c v).mem
  have hflow : FlowEq ((s.writeDm c v).moved b a g s.px (s.writeDm c v).mem) s :=
    ⟨hf.seq.trans hw.seq, by rw [moved_lat, hw.lat], hf.free.trans hw.freeCtr⟩
  refine ⟨_, hj, ⟨(hflow.advance s).seq, ?lat, ?other, ?status, ?px⟩, ?bank, ?astat, ?dag,
    writeDm_stored hm c v ?mem ?pdNew ?tcountSet ?devices⟩
  case lat => rw [advance_lat, advance_lat s s, (hflow.advance s).use, moved_lat, hw.lat]
  case other =>
    have h := commit_sameOtherBank (s.writeDm c v) b a
    unfold SameOtherBank at *
    rw [writeDm_secReg, hw.pri, hw.sec] at h
    rw [advance_pri, advance_sec]
    exact h
  case status => rw [advance_st, moved_st, hw.st]
  case px => rw [advance_px, moved_px]
  case bank => rw [advance_bank, moved_bank]
  case astat => rw [advance_st, moved_st]
  case dag => rw [advance_dag, moved_dag]
  case mem => rw [advance_mem, moved_mem]
  case pdNew => rw [advance_lat, moved_lat]
  case tcountSet => rw [advance_lat, moved_lat]
  case devices => exact (moved_sameDevices _ b a g s.px _).trans (onlyFlow_sameDevices (advance_onlyFlow s _))

/-- An instruction that writes Data Memory beside a computation that gave `u`. -/
theorem completes_dmWriteOf {j : Instr} {s u : State} (hm : Memory.wf s.mem = true) (hu : Committed s u) {g : Bool}
    {v : Word} {i m : BitVec 2} (hj : exec j s = s.done (s.dmWriteOf u g v i m)) :
    Completes j s (fun t => StoreFrame s t ∧ t.bank = u.bank ∧ t.st.astat = u.st.astat ∧ t.dag = (s.post g i m).dag ∧
      StoredDm s t (s.addr g i) v) :=
  completes_writeDm hm (hj.trans (congrArg s.done (dmWriteOf_moved hu g v i m)))

theorem writeDm_self_moved (s : State) (c : Addr) (v : Word) :
    s.writeDm c v = (s.writeDm c v).moved s.bank s.st.astat s.dag s.px (s.writeDm c v).mem := by
  conv_lhs => rw [← moved_self s, writeDm_moved]

/-- Settles O30: a write alone is the write beside a computation that leaves the state as it is. -/
theorem storesToDm : Obligations.StoresToDm := fun _ z cp fn x _ _ _ _ _ _ s hm =>
  ⟨completes_dmWriteOf hm (committed_self s) rfl, completes_dmWriteOf hm (committed_self s) rfl,
    completes_dmWriteOf hm (compute_committed s z cp) rfl, completes_dmWriteOf hm (shiftReg_committed s fn x) rfl,
    completes_writeDm hm (congrArg s.done (writeDm_self_moved s _ _))⟩

/-! ### Loads of a register -/

theorem encode_loadDregImm (data : BitVec 16) (d : Dreg) :
    encode (.loadDregImm data d) = 0b0100#4 ++ data ++ BitVec.ofNat 4 d.code := by
  have hdata := data.isLt
  have hd := d.code_lt
  apply BitVec.eq_of_toNat_eq
  rw [toNat_append_eq_add, toNat_append_eq_add]
  simp only [encode, encodeNat, BitVec.toNat_ofNat]
  omega

/-- Settles O32: the word by the round trip, the effect by that of a data register written. -/
theorem loadDataRegisterImmediate : Obligations.LoadDataRegisterImmediate := by
  intro data d s
  refine ⟨encode_loadDregImm data d ▸ Laws.RoundTrip.loadDregImm data d rfl, ?_⟩
  refine completes_commit (b := s.bank.setDreg d data) (a := s.st.astat) (congrArg s.done (setBank_commit s _)) ?_
  obtain ⟨haf, hmf, hsb⟩ := setDreg_rest s.bank d data
  rw [advance_st, commit_st, advance_bank, commit_bank]
  refine ⟨rfl, fun e he hm => dreg_setDreg_other _ _ he hm, haf, hmf, hsb, dreg_setDreg_self _ _ _, ?_⟩
  rintro rfl
  rfl

/-- What an I/O read reads is the latest word presented at the address the board sees. -/
theorem readIo_latest {s : State} {io : BitVec 11} {newer older : List (BitVec 11 × Word)} {w : Word}
    (h : s.io.present = newer ++ (s.ioAddr io, w) :: older) (hn : ∀ p ∈ newer, p.1 ≠ s.ioAddr io) : s.readIo io = w := by
  have hnone : newer.lookup (s.ioAddr io) = none :=
    List.lookup_eq_none_iff.mpr fun p hp => by simpa using (hn p hp).symm
  have hl : s.io.present.lookup (s.ioAddr io) = some w := by
    rw [h, List.lookup_append, hnone, Option.none_or, List.lookup_cons_self]
  rw [State.readIo, hl]

/-- The low bits of a sign-extended word are its own. -/
theorem setWidth_signExtend_low (k : Addr) : (k.signExtend 16).setWidth 4 = k.setWidth 4 := by
  refine BitVec.eq_of_getLsbD_eq fun j hj => ?_
  rw [BitVec.getLsbD_setWidth, BitVec.getLsbD_setWidth, BitVec.getLsbD_signExtend, if_pos (by omega : j < 14),
    decide_eq_true (by omega : j < 16), Bool.true_and]

/-- Settles O33: each move is the load of the word it reads, an overlay register taking the low bits of its constant. -/
theorem registerMoves : Obligations.RegisterMoves := by
  intro r src d a k io s
  have hlow := setWidth_signExtend_low k
  refine ⟨rfl, rfl, rfl, ?_, ?_, rfl, fun newer older w h hn => readIo_latest h hn, fun w rest henv => ?_⟩
  · rw [← hlow]
    rfl
  · rw [← hlow]
    rfl
  · unfold step
    rw [henv]
    rfl

/-! ### I/O space -/

theorem encode_ioWrite (a : BitVec 11) (d : Dreg) :
    encode (.ioWrite a d) = 0b000000011#9 ++ a ++ BitVec.ofNat 4 d.code := by
  have ha := a.isLt
  have hd := d.code_lt
  apply BitVec.eq_of_toNat_eq
  rw [toNat_append_eq_add, toNat_append_eq_add]
  simp only [encode, encodeNat, BitVec.toNat_ofNat]
  omega

/-- Settles O38: the word by the round trip; the write reaches neither the sequencer nor the one-cycle actions. -/
theorem ioWrite : Obligations.IoWrite := by
  intro a d s
  refine ⟨encode_ioWrite a d ▸ Laws.RoundTrip.ioWrite a d rfl, _, rfl, advance_sameFlow ⟨rfl, rfl, rfl⟩ rfl, ?_, ?_, ?_⟩
  · rw [advance_io]
    exact advance_eq s (s.writeIo a (s.bank.dreg d))
  · rw [advance_io]
    rfl
  · rw [advance_io]
    rfl

end Sys2Proof.Machine
end

section
/-!
PROOFS. The program flow instructions: the taken and the untaken transfers, the counting test, the returns, the hardware loops and
IDLE (44_program_flow.md R400 to R430).
-/

namespace Sys2Proof.Machine

/-! ### The sequencing step, by where the instruction stands -/

section
variable {s : State}

/-- Away from the end of a loop the next address follows (44_program_flow.md R400). -/
theorem advance_of_not_atLoopEnd (h : s.atLoopEnd = false) (t : State) : s.advance t = t.setPc s.nextPc := by
  unfold State.advance
  rw [if_neg (by simp [h])]

/-- A plain last instruction, which uses nothing the loop mechanism uses, does the end-of-loop action (44_program_flow.md
R421). -/
theorem advance_of_atLoopEnd (h : s.atLoopEnd = true) (hu : s.lat.use = Use.none) : s.advance s = s.loopEnd s := by
  have hc : s.loopCollides s = false := by
    unfold State.loopCollides
    rw [hu]
    rfl
  unfold State.advance
  rw [if_pos h, if_neg (by simp [hc])]

theorem exec_nop (s : State) : exec .nop s = s.done s := rfl

/-! ### The counting test (44_program_flow.md R412) -/

theorem ce_iff (s : State) : s.ce = true ↔ s.seq.cntr = 1 := beq_iff_eq

theorem countCe_of_ne_one (h : s.seq.cntr ≠ 1) : s.countCe = { s with seq := { s.seq with cntr := s.seq.cntr - 1 } } := by
  unfold State.countCe
  rw [if_neg (by rwa [ce_iff])]

theorem countCe_of_one_empty (h : s.seq.cntr = 1) (hn : s.seq.cntStk.n ≤ 0) :
    s.countCe = { s with seq := { s.seq with cntr := 0, cntrValid := false } } := by
  unfold State.countCe
  rw [if_pos ((ce_iff s).mpr h), if_pos ((Stack.isEmpty_iff _).mpr hn)]

theorem countCe_of_one_cons (h : s.seq.cntr = 1) {v : Addr} {rest : List Addr} (he : s.seq.cntStk.entries = v :: rest)
    (hpos : 0 < s.seq.cntStk.n) (hle : s.seq.cntStk.n ≤ cntDepth) :
    s.countCe = { s with seq := { s.seq with
      cntr := v
      cntrValid := true
      cntStk := { s.seq.cntStk with entries := rest, n := s.seq.cntStk.n - 1, flip := false } } } := by
  have hn : ¬s.seq.cntStk.isEmpty = true := by
    rw [Stack.isEmpty_iff]
    omega
  unfold State.countCe
  rw [if_pos ((ce_iff s).mpr h), if_neg hn, Stack.top_cons he hpos hle, Stack.pop_cons he hpos hle]

/-- NOT CE holds while the counter is not 1. -/
theorem cond_notCe_iff (s : State) : s.cond .notCe = true ↔ s.seq.cntr ≠ 1 := by simp [State.cond, condTrue]

theorem cond_notCe_of_one (h : s.seq.cntr = 1) : s.cond .notCe = false := by simp [State.cond, condTrue, h]

/-! ### Jumps and calls -/

theorem jumpTested_of_ne_notCe {c : Cond} (h : c ≠ .notCe) : s.jumpTested c = s := by
  unfold State.jumpTested
  split
  · exact absurd rfl h
  · rfl

/-- A call does not count where its condition is not NOT CE, or where the parameter says so (92_eei_decisions.md D27). -/
theorem callTested_of_not_counting {c : Cond} (h : c ≠ .notCe ∨ s.cfg.callNotCeCounts = false) : s.callTested c = s := by
  unfold State.callTested
  split
  next hcounts => exact jumpTested_of_ne_notCe (h.resolve_right (by simp [hcounts]))
  next => rfl

theorem callTested_notCe (h : s.cfg.callNotCeCounts = true) : s.callTested .notCe = s.countCeJump := if_pos h

theorem jumpTo_of_true {c : Cond} (h : s.cond c = true) (a : Addr) :
    s.jumpTo c a = .next ((s.jumpTested c).setPc a) := if_pos h

theorem jumpTo_of_false {c : Cond} (h : s.cond c = false) (a : Addr) : s.jumpTo c a = s.done (s.jumpTested c) :=
  if_neg (by simp [h])

theorem callTo_of_true {c : Cond} (h : s.cond c = true) (a : Addr) :
    s.callTo c a = .next (((s.callTested c).pushPc s.nextPc).setPc a) := if_pos h

theorem callTo_of_false {c : Cond} (h : s.cond c = false) (a : Addr) : s.callTo c a = s.done (s.callTested c) :=
  if_neg (by simp [h])

/-- A taken call of a state whose condition counts nothing. -/
theorem completes_call {j : Instr} {a : Addr} (h : exec j s = .next ((s.pushPc s.nextPc).setPc a)) :
    Completes j s (fun t => OnlyFlow s t ∧
      t.seq = { s.seq with pc := a, pcStk := s.seq.pcStk.push pcDepth (s.seq.pc + 1) }) :=
  ⟨_, h, (setPcStk_onlyFlow _ _).trans (setPc_onlyFlow _ _), rfl⟩

end

/-- Settles O39: a condition other than a counting one leaves the state, so that a transfer is its push and its address, or a
NOP. -/
theorem jumpsAndCalls : Obligations.JumpsAndCalls := by
  intro a i c fic s goes calls
  refine ⟨fun hne hc => ?jump, fun hne hc => ?jumpNot, fun hcall => ⟨fun hc => ?call, fun hc => ?callNot⟩, fun hbit => ?fi,
    fun hfi => ?flag, fun hfi => ?flagNot⟩
  case jump =>
    have h (tgt : Addr) : s.jumpTo c tgt = .next (s.setPc tgt) := by rw [jumpTo_of_true hc, jumpTested_of_ne_notCe hne]
    exact ⟨h a, h s.dag.i[dagNo true i]⟩
  case jumpNot =>
    have h (tgt : Addr) : s.jumpTo c tgt = exec .nop s := by
      rw [jumpTo_of_false hc, jumpTested_of_ne_notCe hne, exec_nop]
    exact ⟨h a, h s.dag.i[dagNo true i]⟩
  case call =>
    have h (tgt : Addr) : s.callTo c tgt = .next ((s.pushPc s.nextPc).setPc tgt) := by
      rw [callTo_of_true hc, callTested_of_not_counting hcall]
    exact ⟨completes_call (h a), completes_call (h s.dag.i[dagNo true i])⟩
  case callNot =>
    have h (tgt : Addr) : s.callTo c tgt = exec .nop s := by
      rw [callTo_of_false hc, callTested_of_not_counting hcall, exec_nop]
    exact ⟨h a, h s.dag.i[dagNo true i]⟩
  case fi =>
    have hs : ¬s.sport1Serial = true := by
      unfold State.sport1Serial
      simp only [hbit, Bool.false_eq_true, not_false_iff]
    exact if_neg hs
  case flag =>
    have hb : (s.fi == fic) = true := by simp [hfi]
    exact ⟨if_pos hb, completes_call (if_pos hb)⟩
  case flagNot =>
    have hb : ¬(s.fi == fic) = true := by simp [hfi]
    exact ⟨if_neg hb, if_neg hb⟩

/-! ### Jumps and calls that count -/

section
variable {s : State}

/-- The counting test of a transfer that is taken: the counter less one, and nothing else of the sequencer. -/
theorem countCeJump_of_ne_one (h : s.seq.cntr ≠ 1) : OnlyFlow s s.countCeJump ∧
    s.countCeJump.seq = { s.seq with cntr := s.seq.cntr - 1 } :=
  ⟨countCeJump_onlyFlow s, congrArg State.seq (countCe_of_ne_one h)⟩

theorem completes_countingJump {j : Instr} {a : Addr} (h : s.seq.cntr ≠ 1)
    (hj : exec j s = .next (s.countCeJump.setPc a)) :
    Completes j s (fun t => OnlyFlow s t ∧ t.seq = { s.seq with cntr := s.seq.cntr - 1, pc := a }) := by
  obtain ⟨hflow, hseq⟩ := countCeJump_of_ne_one h
  exact ⟨_, hj, hflow.trans (setPc_onlyFlow _ _), by rw [setPc_seq, hseq]⟩

theorem completes_countingCall {j : Instr} {a : Addr} (h : s.seq.cntr ≠ 1)
    (hj : exec j s = .next ((s.countCeJump.pushPc s.nextPc).setPc a)) :
    Completes j s (fun t => OnlyFlow s t ∧ t.seq = { s.seq with
      cntr := s.seq.cntr - 1, pc := a, pcStk := s.seq.pcStk.push pcDepth (s.seq.pc + 1) }) := by
  obtain ⟨hflow, hseq⟩ := countCeJump_of_ne_one h
  refine ⟨_, hj, (hflow.trans (setPcStk_onlyFlow _ _)).trans (setPc_onlyFlow _ _), ?_⟩
  rw [setPc_seq, State.pushPc, setPcStk_seq, hseq]
  rfl

/-- A transfer that counts and is not taken, away from the end of a loop, leaves what the counting test leaves and advances. -/
theorem completes_expired {j : Instr} (hl : s.atLoopEnd = false) (hj : exec j s = s.done s.countCeJump) :
    Completes j s (fun t => OnlyFlow s t ∧ t.seq = { s.countCe.seq with pc := s.seq.pc + 1 }) := by
  refine ⟨_, hj, (countCeJump_onlyFlow s).trans (advance_onlyFlow s _), ?_⟩
  rw [advance_of_not_atLoopEnd hl]
  rfl

end

/-- Settles O40: a taken transfer counts down, one that is not taken does the last counting test. -/
theorem countingTransfers : Obligations.CountingTransfers := by
  intro a i s less calls expires
  refine ⟨fun h => ?taken, fun h hl => ?expired⟩
  case taken =>
    have hc := (cond_notCe_iff s).mpr h
    have hjump (tgt : Addr) : s.jumpTo .notCe tgt = .next (s.countCeJump.setPc tgt) := jumpTo_of_true hc tgt
    refine ⟨completes_countingJump h (hjump a), completes_countingJump h (hjump _), fun hp => ?_⟩
    have hcall (tgt : Addr) : s.callTo .notCe tgt = .next ((s.countCeJump.pushPc s.nextPc).setPc tgt) := by
      rw [callTo_of_true hc, callTested_notCe hp]
    exact ⟨completes_countingCall h (hcall a), completes_countingCall h (hcall _)⟩
  case expired =>
    have hc := cond_notCe_of_one h
    have hexp {j : Instr} (hj : exec j s = s.done s.countCeJump) : expires j := by
      have hdone := completes_expired hl hj
      refine ⟨fun hn => ?_, fun v rest he hpos hle => ?_⟩
      · rwa [countCe_of_one_empty h hn] at hdone
      · rwa [countCe_of_one_cons h he hpos hle] at hdone
    have hjump (tgt : Addr) : s.jumpTo .notCe tgt = s.done s.countCeJump := jumpTo_of_false hc tgt
    refine ⟨hexp (hjump a), hexp (hjump _), fun hp => ?_⟩
    have hcall (tgt : Addr) : s.callTo .notCe tgt = s.done s.countCeJump := by
      rw [callTo_of_false hc, callTested_notCe hp]
    exact ⟨hexp (hcall a), hexp (hcall _)⟩

/-! ### Returns -/

section
variable {s : State}

theorem returnSub_onlyFlow (s : State) : OnlyFlow s s.returnSub := rfl

/-- The top and the pop of a PC stack that holds its top entry. -/
theorem topPc_cons {a : Addr} {rest : List Addr} (he : s.seq.pcStk.entries = a :: rest) (hpos : 0 < s.seq.pcStk.n)
    (hle : s.seq.pcStk.n ≤ pcDepth) : s.topPc = a := Stack.top_cons he hpos hle _

theorem topSts_cons {e : StsEntry} {rest : List StsEntry} (he : s.seq.stsStk.entries = e :: rest)
    (hpos : 0 < s.seq.stsStk.n) (hle : s.seq.stsStk.n ≤ s.cfg.stsDepth) : s.topSts = e := Stack.top_cons he hpos hle _

end

/-- Settles O41: RTS by its pop of the PC stack, RTI by the operation that returns from an interrupt. -/
theorem returns : Obligations.Returns := by
  intro c s
  refine ⟨fun hc => ⟨?rts, ?rti⟩, fun hc => ?untaken⟩
  case rts =>
    have hx : exec (.rts c) s = .next s.returnSub := if_pos hc
    refine ⟨_, hx, returnSub_onlyFlow s, rfl, fun a rest he hpos hle => ⟨topPc_cons he hpos hle, ?_⟩⟩
    exact congrArg Stack.entries (Stack.pop_cons he hpos hle)
  case rti =>
    have hx : exec (.rti c) s = .next s.returnInterrupt := if_pos hc
    refine ⟨_, hx, ?_⟩
    rw [returnInterrupt_eq]
    refine ⟨rfl, rfl, rfl, fun a rest he hpos hle => topPc_cons he hpos hle, fun e rest he hpos hle => ?_⟩
    obtain rfl := topSts_cons he hpos hle
    exact ⟨rfl, rfl, rfl⟩
  case untaken =>
    have hn : ¬s.cond c = true := by simp [hc]
    exact ⟨if_neg hn, if_neg hn⟩

/-! ### DO UNTIL -/

theorem Stack.isFull_iff {α : Type} (k : Stack α) (d : Nat) : k.isFull d = true ↔ (d : Int) ≤ k.n := decide_eq_true_iff

theorem doFull_onlyFlow (s : State) : OnlyFlow s s.doFull := rfl

theorem pushLoop_pushPc_onlyFlow (s : State) (e : LoopEntry) (a : Addr) : OnlyFlow s ((s.pushLoop e).pushPc a) :=
  (setLoopStk_onlyFlow _ _).trans (setPcStk_onlyFlow _ _)

/-- Settles O42: with a stack full only the overflow bits, else the two pushes; then the next address. -/
theorem doUntil : Obligations.DoUntil := by
  intro a term s
  have hiff : (s.seq.loopStk.isFull loopDepth || s.seq.pcStk.isFull pcDepth) = true ↔
      4 ≤ s.seq.loopStk.n ∨ 16 ≤ s.seq.pcStk.n := by
    rw [Bool.or_eq_true, Stack.isFull_iff, Stack.isFull_iff]
    rfl
  by_cases hfull : 4 ≤ s.seq.loopStk.n ∨ 16 ≤ s.seq.pcStk.n
  · have hx : exec (.doUntil a term) s = s.done s.doFull := if_pos (hiff.mpr hfull)
    refine ⟨_, hx, (doFull_onlyFlow s).trans (advance_onlyFlow s _), fun hl => ?_⟩
    rw [if_pos hfull, advance_of_not_atLoopEnd hl]
    rfl
  · have hx : exec (.doUntil a term) s =
        s.done ((s.pushLoop { last := a, term := term, first := s.nextPc }).pushPc s.nextPc) := if_neg (hiff.not.mpr hfull)
    refine ⟨_, hx, (pushLoop_pushPc_onlyFlow s _ _).trans (advance_onlyFlow s _), fun hl => ?_⟩
    rw [if_neg hfull, advance_of_not_atLoopEnd hl]
    rfl

/-! ### The end of a hardware loop (44_program_flow.md R421) -/

section
variable {s : State}

theorem loopEnd_of_ce (h : s.topLoop.term = .ce) (t : State) : s.loopEnd t = s.loopTo t.countCe s.ce := by
  unfold State.loopEnd
  rw [h]

theorem loopEnd_of_ne_ce (h : s.topLoop.term ≠ .ce) (t : State) :
    s.loopEnd t = s.loopTo t (termTrue s.topLoop.term s.st.astat s.seq.cntr) := by
  unfold State.loopEnd
  split
  next hce => exact absurd hce h
  next => rfl

/-- A loop that is left pops the loop and the PC stack and goes on; one that is not goes back to the top. -/
theorem loopTo_seq (s t : State) (done : Bool) : (s.loopTo t done).seq =
    if done then { t.seq with
      pc := s.seq.pc + 1, loopStk := t.seq.loopStk.pop loopDepth, pcStk := t.seq.pcStk.pop pcDepth }
    else { t.seq with pc := t.topPc } := by
  cases done <;> rfl

/-- LT is the sign of the true result, N xor V, of which GE is the complement (30_encoding.md R177). -/
theorem termTrue_lt (a : BitVec 8) (cntr : Addr) : termTrue .lt a cntr = (astatAN a != astatAV a) :=
  (Bool.not_not _).trans (Bool.bne_eq_xor ▸ rfl)

theorem termTrue_ge (a : BitVec 8) (cntr : Addr) : termTrue .ge a cntr = (astatAN a == astatAV a) :=
  have h : termTrue .ge a cntr = !(astatAN a != astatAV a) := Bool.bne_eq_xor ▸ rfl
  h.trans (Bool.not_not _)

theorem termTrue_le (a : BitVec 8) (cntr : Addr) : termTrue .le a cntr = ((astatAN a != astatAV a) || astatAZ a) :=
  (Bool.not_not _).trans (Bool.bne_eq_xor ▸ rfl)

theorem termTrue_gt (a : BitVec 8) (cntr : Addr) : termTrue .gt a cntr = ((astatAN a == astatAV a) && !astatAZ a) :=
  (Bool.not_or _ _).trans (congrArg (· && !astatAZ a) (termTrue_ge a cntr))

end

/-- Settles O43: the end-of-loop action by the kind of the loop, a counted loop by the three outcomes of the counting test, any
other by its termination code. -/
theorem loopEnd : Obligations.LoopEnd := by
  intro s hend huse back out a
  have hadv := advance_of_atLoopEnd hend huse
  have hcounted (hce : s.topLoop.term = .ce) : (s.advance s).seq = (s.loopTo s.countCe s.ce).seq := by
    rw [hadv, loopEnd_of_ce hce]
  have hlast (h1 : s.seq.cntr = 1) : s.ce = true := (ce_iff s).mpr h1
  refine ⟨_, exec_nop s, advance_onlyFlow s s, fun hce hne => ?goesOn, fun hce h1 hn => ?outEmpty,
    fun v rest hce h1 he hpos hle => ?outRestored, fun hne => ?other⟩
  case goesOn =>
    have hcont : s.ce = false := Bool.eq_false_iff.mpr ((ce_iff s).not.mpr hne)
    rw [hcounted hce, countCe_of_ne_one hne, hcont]
    rfl
  case outEmpty =>
    rw [hcounted hce, countCe_of_one_empty h1 hn, hlast h1]
    rfl
  case outRestored =>
    rw [hcounted hce, countCe_of_one_cons h1 he hpos hle, hlast h1]
    rfl
  case other =>
    intro ends
    have hends : ends = termTrue s.topLoop.term s.st.astat s.seq.cntr := by
      simp only [ends]
      revert hne
      cases s.topLoop.term with
      | ce => exact fun hne => absurd rfl hne
      | le => exact fun _ => (termTrue_le _ _).symm
      | gt => exact fun _ => (termTrue_gt _ _).symm
      | ge => exact fun _ => (termTrue_ge _ _).symm
      | lt => exact fun _ => (termTrue_lt _ _).symm
      | eq | av | ac | neg | mv => exact fun _ => (Bool.not_not _).symm
      | ne | notAv | notAc | pos | notMv | forever => exact fun _ => rfl
    rw [hends, hadv, loopEnd_of_ne_ce hne, loopTo_seq]

/-! ### IDLE -/

section
variable {s : State}

theorem idlePowersDown_iff (s : State) :
    s.idlePowersDown = true ↔ s.irq.pdSeq = true ∧ (s.irq.pwdPin = false ∨ s.irq.pdForced = true) := by
  simp [State.idlePowersDown]

theorem idleWith_of_powerDown (h : s.idlePowersDown = true) (n : Nat) : s.idleWith n =
    if s.bdma.active then .refused .powerdownDuringBdma else .next { s.setPc s.nextPc with core := .powerDown } := if_pos h

theorem idleWith_of_waiting (h : ¬s.idlePowersDown = true) (n : Nat) :
    s.idleWith n = .next { s.setPc s.nextPc with core := .idle n } := if_neg h

end

/-- Settles O45: both forms are the same operation with their divisor, which powers down, is refused, or waits. -/
theorem idleInstructions : Obligations.IdleInstructions := by
  intro n s goes
  split
  next hdown =>
    have h := idleWith_of_powerDown ((idlePowersDown_iff s).mpr hdown)
    split
    next hactive =>
      have hrefused (k : Nat) : s.idleWith k = .refused .powerdownDuringBdma := (h k).trans (if_pos hactive)
      exact ⟨hrefused 1, hrefused _⟩
    next hactive =>
      have hdone (k : Nat) := (h k).trans (if_neg hactive)
      exact ⟨hdone 1, hdone _⟩
  next hdown =>
    have h := idleWith_of_waiting ((idlePowersDown_iff s).not.mpr hdown)
    exact ⟨h 1, h _, by cases n <;> rfl⟩

end Sys2Proof.Machine
end

section
/-!
PROOFS. The step of a core that is ready: the next instruction of the program, fetched, decoded and executed, with nothing before
it (44_program_flow.md R400; 70_reset_and_hazards.md R731).
-/

namespace Sys2Proof.Machine

/-- The bus is taken while it is granted, and while a requested grant waits for a BDMA byte access. -/
theorem busTaken_iff (s : State) : s.busTaken = true ↔
    s.bg = true ∨ (s.br = true ∧ s.bdma.active = true ∧ s.bdma.wait % (s.bmwait + 1) ≠ 0) := by
  cases hb : s.bdma.active <;> simp [State.busTaken, State.byteLeft, hb]

section
variable {s : State}

/-- Nothing asks for an autobuffer transfer. -/
theorem State.Ready.autobuffer_none (h : s.Ready) : s.autobuffer = none := by
  simp [State.autobuffer, h.tx0, h.rx0, h.tx1, h.rx1]

/-- A ready core's step is its next instruction. -/
theorem step_eq_runInstr (h : s.Ready) : step s = s.runInstr := by
  rw [step_boundary h.env (.inl h.core) h.stalled h.bus, boundary_core h.idma h.bdma h.autobuffer_none]
  unfold State.coreStep
  rw [h.interrupt, h.core]

theorem runInstr_stall (hb : s.busTaken = true) (hf : s.ownFetch = true) : s.runInstr = .next s.stall := by
  unfold State.runInstr
  rw [if_pos (by simp [hb, hf])]

theorem runInstr_unfetched (hb : (s.busTaken && s.ownFetch) = false) (hf : s.fetch = none) :
    s.runInstr = .refused .unpopulatedFetch := by
  unfold State.runInstr
  rw [if_neg (by simp [hb]), hf]

theorem runInstr_reserved (hb : (s.busTaken && s.ownFetch) = false) {w : PmWord} {r : Reserved} (hf : s.fetch = some w)
    (hd : decode w = .reserved r) : s.runInstr = .refused (.reservedWord r) := by
  unfold State.runInstr
  rw [if_neg (by simp [hb]), hf]
  dsimp only
  rw [hd]

theorem runInstr_instr (hb : (s.busTaken && s.ownFetch) = false) {w : PmWord} {i : Instr} (hf : s.fetch = some w)
    (hd : decode w = .instr i) : s.runInstr = s.execInstr w i := by
  unfold State.runInstr
  rw [if_neg (by simp [hb]), hf]
  dsimp only
  rw [hd]

/-- Where nothing was read before a grant, an instruction reads memory as it is. -/
theorem seenData_of_held_none (h : s.held = .none) : s.seenData = s := by
  have hm : withHeld s.mem s.held.pm = s.mem := by
    rw [h]
    rfl
  unfold State.seenData
  rw [hm]

theorem unseen_of_held_none (h : s.held = .none) (t : State) : s.unseen t = t := by
  unfold State.unseen
  rw [h]
  rfl

/-- Without a bus request in it no instruction is split. -/
theorem splits_of_amid_zero (h : s.amid = 0) (t : State) (i : Instr) : s.splits t i = false := by
  simp [State.splits, h]

end

/-- Settles O5: a ready core's step is its next instruction, and each way that can go has its lemma above. -/
theorem stepRunsDecoded : Obligations.StepRunsDecoded := by
  intro s h
  rw [step_eq_runInstr h]
  refine ⟨busTaken_iff s, runInstr_stall, fun hb => ⟨fun w i hf hd => ?_, fun w r => runInstr_reserved hb,
    runInstr_unfetched hb⟩⟩
  rw [runInstr_instr hb hf hd]
  unfold State.execInstr
  rw [seenData_of_held_none h.held]
  cases exec i s with
  | next t =>
    dsimp only
    rw [unseen_of_held_none h.held, splits_of_amid_zero h.amid]
    split <;> rfl
  | fault f => rfl
  | refused r => rfl

end Sys2Proof.Machine
end

section
/-!
PROOFS. The instructions of 45_misc.md: the TOPPCSTACK moves, MODIFY, stack control, the modes and the flag outputs (R450 to R463).
-/

namespace Sys2Proof.Machine

/-! ### MODIFY -/

theorem encode_modify (g : Bool) (i m : BitVec 2) :
    encode (.modify g i m) = 0b0000100100000000000#19 ++ BitVec.ofBool g ++ i ++ m := by
  have hg : boolCode g = g.toNat := by cases g <;> rfl
  have hlt := g.toNat_lt
  have hi := i.isLt
  have hm := m.isLt
  apply BitVec.eq_of_toNat_eq
  simp only [toNat_append_eq_add, BitVec.toNat_ofNat, BitVec.toNat_ofBool, encode, encodeNat, hg]
  omega

/-- The post-modify alone reaches the DAG registers. -/
theorem post_moved (s : State) (g : Bool) (i m : BitVec 2) :
    s.post g i m = s.moved s.bank s.st.astat (s.post g i m).dag s.px s.mem := by
  have h := commit_post s s.bank s.st.astat i m g
  rwa [commit_self] at h

/-- Settles O36: the word by the round trip, the effect by that of the post-modify, which writes one I register. -/
theorem modifyIndex : Obligations.ModifyIndex := by
  intro g i m s
  obtain ⟨t, ht, hframe, hmem, hpx, hdag, hastat, hbank⟩ :=
    completes_moved (j := .modify g i m) (P := (· = s.bank)) (congrArg s.done (post_moved s g i m)) rfl
  refine ⟨encode_modify g i m ▸ Laws.RoundTrip.modify g i m rfl, t, ht, hframe, hmem, hpx, hbank, hastat, ?m, ?l,
    fun k hk => ?other, ?self⟩
  case m => rw [hdag]; rfl
  case l => rw [hdag]; rfl
  case other =>
    rw [hdag]
    exact set_other s.dag.i _ hk
  case self =>
    rw [hdag]
    exact Vector.getElem_set_self _

/-! ### The TOPPCSTACK moves -/

section
variable {r : Reg} {s : State}

/-- A load of a register that pairs with TOPPCSTACK reaches the active bank or the DAG registers. -/
theorem load_of_pairsTop (h : r.pairsTop = true) (s : State) (v : Word) :
    SameDevices s (s.load r v) ∧ (s.load r v).seq = s.seq ∧ (s.load r v).lat = s.lat := by
  cases r with
  | d d =>
    have hload : s.load (.d d) v = s.commit (s.bank.setDreg d v) s.st.astat := setBank_commit s _
    rw [hload]
    refine ⟨commit_sameDevices s _ _, ?_, ?_⟩
    all_goals rw [commit_eq]
  | i | m | l => exact ⟨by constructor <;> rfl, rfl, rfl⟩
  | _ => cases h

/-- Such a register reads the same whatever the sequencer and the one-cycle actions are. -/
theorem bus_of_pairsTop (h : r.pairsTop = true) (s : State) (q : Seq) (l : Lat) :
    { s with seq := q, lat := l }.bus r = s.bus r := by
  cases r with
  | d | i | m | l => rfl
  | _ => cases h

/-- Away from the end of a loop the read of TOPPCSTACK is the load of the top entry, and notes the pop. -/
theorem exec_popTop (hl : s.atLoopEnd = false) (h : r.pairsTop = true) : exec (.popTop r) s = .next
    { s.load r (s.topPc.setWidth 16) with
      seq := { s.seq with pc := s.seq.pc + 1 }
      lat := { (s.load r (s.topPc.setWidth 16)).lat with
        popNew := true
        use := { s.lat.use with pcStack := true, loop := true, top := true } } } := by
  obtain ⟨-, hseq, hlat⟩ := load_of_pairsTop h s (s.topPc.setWidth 16)
  refine (congrArg Host.Outcome.next (advance_of_not_atLoopEnd hl _)).trans ?_
  simp only [State.setPc, State.nextPc, hseq, hlat]

end

/-- Settles O35: the write is a push of the PC stack; the read is a load, of a register that is no part of the sequencer, and a
pop that is noted. -/
theorem topPcStackMoves : Obligations.TopPcStackMoves := by
  intro r s hl
  refine ⟨?push, fun hr a rest he hpos hle => ?pop⟩
  case push =>
    refine ⟨_, rfl, advance_onlyFlow s _, ?_⟩
    rw [advance_of_not_atLoopEnd hl]
    rfl
  case pop =>
    obtain ⟨hdev, -⟩ := load_of_pairsTop hr s (a.setWidth 16)
    have hx := exec_popTop hl hr
    rw [topPc_cons he hpos hle] at hx
    exact ⟨_, hx, fun c => congrArg (memGet · c) (load_mem s r _), hdev.trans (onlyFlow_sameDevices rfl),
      bus_of_pairsTop hr _ _ _, rfl⟩

/-! ### Stack control -/

/-- What stack control does to the stacks and the status registers, before the sequencing step (45_misc.md R450). -/
def State.controlled (s : State) (pp lp cp : Bool) (op : StsOp) : State :=
  let t1 := s.stsOp op
  let t2 := if cp then t1.popCntr else t1
  let t3 := if pp then t2.discardPc else t2
  if lp then t3.popLoop else t3

section
variable (s : State)

theorem exec_stackControl (iq pp lp cp : Bool) (op : StsOp) :
    exec (.stackControl iq pp lp cp op) s = s.done (s.controlled pp lp cp op) := rfl

/-- The status stack clause reaches the status stack and, in POP STS, the three registers saved there. -/
theorem stsOp_eq (op : StsOp) : s.stsOp op = { s with seq := (s.stsOp op).seq, st := (s.stsOp op).st } := by
  cases op <;> rfl

theorem stsOp_seq (op : StsOp) : (s.stsOp op).seq = { s.seq with
    stsStk := match op with
      | .push => s.seq.stsStk.push s.cfg.stsDepth { astat := s.st.astat, mstat := s.st.mstat, imask := s.st.imask }
      | .pop => s.seq.stsStk.pop s.cfg.stsDepth
      | _ => s.seq.stsStk } := by
  cases op <;> rfl

theorem stsOp_st_of_ne_pop {op : StsOp} (h : op ≠ .pop) : (s.stsOp op).st = s.st := by
  cases op with
  | pop => exact absurd rfl h
  | keep0 | keep1 | push => rfl

theorem popCntrIf_seq (b : Bool) : (if b then s.popCntr else s).seq = { s.seq with
    cntStk := if b then s.seq.cntStk.pop cntDepth else s.seq.cntStk
    cntr := if b then s.seq.cntStk.top cntDepth (Config.free 14 s.freeCtr .cntrPop 0) else s.seq.cntr
    cntrValid := b || s.seq.cntrValid } := by
  cases b <;> rfl

theorem discardPcIf_seq (b : Bool) : (if b then s.discardPc else s).seq =
    { s.seq with pcStk := if b then s.seq.pcStk.pop pcDepth else s.seq.pcStk } := by
  cases b <;> rfl

theorem popLoopIf_seq (b : Bool) : (if b then s.popLoop else s).seq =
    { s.seq with loopStk := if b then s.seq.loopStk.pop loopDepth else s.seq.loopStk } := by
  cases b <;> rfl

theorem popCntrIf_onlyFlow (b : Bool) : OnlyFlow s (if b then s.popCntr else s) := by cases b <;> rfl
theorem discardPcIf_onlyFlow (b : Bool) : OnlyFlow s (if b then s.discardPc else s) := by cases b <;> rfl
theorem popLoopIf_onlyFlow (b : Bool) : OnlyFlow s (if b then s.popLoop else s) := by cases b <;> rfl

/-- The three pops that may come with the status stack clause move only the sequencer. -/
theorem controlled_onlyFlow (pp lp cp : Bool) (op : StsOp) : OnlyFlow (s.stsOp op) (s.controlled pp lp cp op) :=
  ((popCntrIf_onlyFlow _ cp).trans (discardPcIf_onlyFlow _ pp)).trans (popLoopIf_onlyFlow _ lp)

/-- Each clause on its own stack. -/
theorem controlled_seq (pp lp cp : Bool) (op : StsOp) : (s.controlled pp lp cp op).seq = { s.seq with
    pcStk := if pp then s.seq.pcStk.pop pcDepth else s.seq.pcStk
    loopStk := if lp then s.seq.loopStk.pop loopDepth else s.seq.loopStk
    cntStk := if cp then s.seq.cntStk.pop cntDepth else s.seq.cntStk
    cntr := if cp then s.seq.cntStk.top cntDepth (Config.free 14 s.freeCtr .cntrPop 0) else s.seq.cntr
    cntrValid := cp || s.seq.cntrValid
    stsStk := (s.stsOp op).seq.stsStk } := by
  have hfree : (s.stsOp op).freeCtr = s.freeCtr := by rw [stsOp_eq]
  rw [State.controlled, popLoopIf_seq, discardPcIf_seq, popCntrIf_seq, hfree, stsOp_seq]

end

/-- Settles O46: the status stack clause, three pops that move only the sequencer, and the next address. -/
theorem stackControl : Obligations.StackControl := by
  intro iq pp lp cp op s
  have hflow := (controlled_onlyFlow s pp lp cp op).trans (advance_onlyFlow s _)
  have hst : (s.advance (s.controlled pp lp cp op)).st = (s.stsOp op).st := by rw [hflow]
  refine ⟨_, exec_stackControl s iq pp lp cp op, ?frame, fun hop => ?kept, fun hop => ?restored, fun hl => ?away⟩
  case frame =>
    rw [hst]
    refine Eq.trans hflow ?_
    rw [stsOp_eq]
  case kept => rw [hst, stsOp_st_of_ne_pop s hop]
  case restored =>
    rw [hst, hop]
    rfl
  case away =>
    rw [advance_of_not_atLoopEnd hl, setPc_seq, controlled_seq, stsOp_seq]
    rfl

/-! ### Modes and flags -/

/-- What an ENA or DIS clause makes of its bit of MSTAT (45_misc.md R455). -/
def modeValue (op : ModeOp) (old : Bool) : Bool :=
  match op with
  | .disable => false
  | .enable => true
  | _ => old

section
variable (op : ModeOp) (m : BitVec 7) {j k : Nat}

theorem modeBit_self (h : k < 7) : (modeBit op k m).getLsbD k = modeValue op (m.getLsbD k) := by
  cases op with
  | keep0 | keep1 => rfl
  | disable | enable => exact (getLsbD_putBit _ _ _ _).trans (if_pos ⟨rfl, h⟩)

theorem modeBit_of_ne (h : j ≠ k) : (modeBit op k m).getLsbD j = m.getLsbD j := by
  cases op with
  | keep0 | keep1 => rfl
  | disable | enable => exact getLsbD_putBit_of_ne _ _ h

end

/-- Mode control: each clause on its own bit of MSTAT (10_state.md R32). -/
theorem completes_modeControl (s : State) (tim mac sat ovl rev sec go : ModeOp) :
    Completes (.modeControl tim mac sat ovl rev sec go) s (fun t => SameFlow s t ∧
      t = { s with seq := t.seq, lat := t.lat, st := { s.st with mstat := t.st.mstat } } ∧
      t.secReg = modeValue sec s.secReg ∧ t.bitRev = modeValue rev s.bitRev ∧ t.avLatch = modeValue ovl s.avLatch ∧
      t.arSat = modeValue sat s.arSat ∧ t.mMode = modeValue mac s.mMode ∧ t.timerOn = modeValue tim s.timerOn ∧
      t.goMode = modeValue go s.goMode) := by
  refine ⟨_, rfl, advance_sameFlow ⟨rfl, rfl, rfl⟩ rfl, ?_, ?_⟩
  · rw [advance_st]
    exact advance_eq s _
  · simp (disch := decide) only [State.secReg, State.bitRev, State.avLatch, State.arSat, State.mMode, State.timerOn,
      State.goMode, advance_st, modeBit_self, modeBit_of_ne, and_self]

/-- Settles O47: each instruction writes one part of the status registers or of the flags, which the sequencing step does not
read. -/
theorem modesAndFlags : Obligations.ModesAndFlags := by
  refine ⟨Laws.RoundTrip.enaInts rfl, Laws.RoundTrip.disInts rfl, fun s => ⟨fun b => ?ints,
    completes_modeControl s, fun f2 f1 f0 fo c hc => ?flags, ?nop, fun c => ?condNop⟩⟩
  case ints => cases b <;> exact ⟨_, rfl, advance_sameFlow ⟨rfl, rfl, rfl⟩ rfl, advance_eq s _⟩
  case flags =>
    intro becomes
    have hflag (op : FlagOp) (old : Bool) : becomes op old = flagApply op old := by cases op <;> rfl
    simp only [hflag]
    exact ⟨_, congrArg s.done (if_pos hc), advance_sameFlow ⟨rfl, rfl, rfl⟩ rfl, advance_eq s _⟩
  case nop => exact ⟨_, exec_nop s, advance_onlyFlow s s, rfl, rfl⟩
  case condNop =>
    have hx : exec (.condNop c) s = s.done s := congrArg s.done (ite_self s)
    exact ⟨_, hx, advance_onlyFlow s s, rfl, rfl⟩

end Sys2Proof.Machine
end

section
/-!
PROOFS. The words that compute beside a register move or beside the two reads of Type 1: the move loads one register of the bank
the computation gave, the reads one of each half (46_multifunction.md R490, R496 to R499).
-/

namespace Sys2Proof.Machine

/-! ### The computation -/

/-- The computation of a multifunction word gives what exact arithmetic gives. -/
theorem compute_compDone (s : State) (z : Dest) (cp : Comp) : CompDone s (s.compute z cp) z cp := by
  cases cp with
  | alu fn y x =>
    cases fn with
    | abs => exact absDone_of s _ z _ (s.bank.aluY y) rfl rfl
    | _ => exact aluDone_of s _ z _ _ _ (by decide) rfl rfl
  | mac fn y x => exact macFnDone_of s _ z fn _ _ rfl rfl

/-! ### A register move beside a computation -/

/-- A commit is a move that leaves the DAG and PX registers and memory. -/
theorem commit_moved (s : State) (b : Bank) (a : BitVec 8) : s.commit b a = s.moved b a s.dag s.px s.mem := by
  unfold State.moved
  rw [commit_eq]

/-- A bank put in beside a computation replaces the one the computation gave. -/
theorem setBank_of_committed {s u : State} (hu : Committed s u) (b : Bank) : u.setBank b = s.commit b u.st.astat := by
  rw [hu, commit_st, commit_moved, moved_setBank, ← commit_moved]

section
variable {j : Instr} {s u : State} {d : Dreg} {v : Word}

/-- An instruction that loads a data register beside a computation that gave `u`. -/
theorem completes_loadBeside (hu : Committed s u) {clash : Bool} (hj : exec j s = s.done (u.loadBeside clash d v)) :
    Completes j s (fun t => RegFrame s t ∧ t.st.astat = u.st.astat ∧ Loaded u.bank t.bank clash d v) := by
  obtain ⟨b, hb, hl⟩ := loadBeside_loaded u clash d v
  rw [hb, setBank_of_committed hu] at hj
  refine completes_commit hj ⟨?_, ?_⟩
  · rw [advance_st, commit_st]
  · rwa [advance_bank, commit_bank]

/-- An instruction that loads a data register beside an ALU or MAC computation. -/
theorem completes_computeMove {z : Dest} {cp : Comp}
    (hj : exec j s = s.done ((s.compute z cp).loadBeside (compWrites z cp d) d v)) :
    Completes j s (fun t => RegFrame s t ∧ t.st.astat = (s.compute z cp).st.astat ∧ CompDone s (s.compute z cp) z cp ∧
      Loaded (s.compute z cp).bank t.bank (compWrites z cp d) d v) := by
  obtain ⟨t, ht, hframe, hastat, hload⟩ := completes_loadBeside (compute_committed s z cp) hj
  exact ⟨t, ht, hframe, hastat, compute_compDone s z cp, hload⟩

end

/-- Settles O26: the move is a load beside the computation, and alone beside a computation that leaves the state as it is. -/
theorem computeAndMove : Obligations.ComputeAndMove := fun _ _ _ sx _ _ s =>
  ⟨fun _ => completes_computeMove rfl, fun _ => completes_computeMove rfl,
    fun fn => completes_loadBeside (shiftReg_committed s fn sx) rfl, completes_loadBeside (committed_self s) rfl⟩

/-! ### The two reads of Type 1 -/

section
variable (s : State) (b : Bank) (a : BitVec 8) (p : BitVec 8) (m : Memory)

/-- The post-modify is that of any state with the same DAG registers and the same free counter. -/
theorem moved_post {r : State} (hr : r.freeCtr = s.freeCtr) (g : Bool) (i k : BitVec 2) :
    (s.moved b a r.dag p m).post g i k = s.moved b a (r.post g i k).dag p m := by
  unfold State.moved State.post State.dagStep State.dagNext
  rw [commit_eq, hr]
  rfl

theorem post_of_committed {s u : State} (hu : Committed s u) (g : Bool) (i k : BitVec 2) :
    u.post g i k = s.moved u.bank u.st.astat (s.post g i k).dag s.px s.mem := by
  rw [hu, commit_post, commit_bank, commit_st]

theorem moved_loadDreg (g : Dag) (d : Dreg) (v : Word) :
    (s.moved b a g p m).loadDreg d v = s.moved (b.setDreg d v) a g p m := by
  rw [State.loadDreg, moved_bank, moved_setBank]

theorem moved_setPx (g : Dag) (v : BitVec 8) : (s.moved b a g p m).setPx v = s.moved b a g v m := rfl

end

/-- The two reads beside a computation: the register of the Data Memory word, then that of the Program Memory word, and PX as
TYPE1_LOADS_PX says (46_multifunction.md R496; 92_eei_decisions.md D32). -/
theorem dualTo_moved {s u : State} (hu : Committed s u) (pd : PmDst) (dd : DmDst) (pi pm di dm : BitVec 2) :
    s.dualTo u pd dd pi pm di dm =
      s.moved ((u.bank.setDreg (ddReg dd) (s.readDm (s.addr false di))).setDreg (pdReg pd)
          ((s.readPm (s.addr true pi)).extractLsb' 8 16))
        u.st.astat ((s.post false di dm).post true pi pm).dag
        (if s.cfg.type1LoadsPx then (s.readPm (s.addr true pi)).extractLsb' 0 8 else s.px) s.mem := by
  have hpost : (u.post false di dm).post true pi pm =
      s.moved u.bank u.st.astat ((s.post false di dm).post true pi pm).dag s.px s.mem := by
    rw [post_of_committed hu, moved_post s _ _ _ _ (r := s.post false di dm) rfl]
  rw [State.dualTo, hpost, moved_loadDreg, moved_loadDreg, moved_setPx]
  split <;> rfl

/-- An instruction that does the two reads of Type 1 beside a computation that gave `u`. -/
theorem completes_dualTo {j : Instr} {s u : State} (hu : Committed s u) {pd : PmDst} {dd : DmDst} {pi pm di dm : BitVec 2}
    (hj : exec j s = s.done (s.dualTo u pd dd pi pm di dm)) :
    Completes j s (fun t => ComputeFrame s t ∧ SameMem s t ∧ t.st.astat = u.st.astat ∧
      t.dag = ((s.post false di dm).post true pi pm).dag ∧
      t.px = (if s.cfg.type1LoadsPx then (s.readPm (s.addr true pi)).extractLsb' 0 8 else s.px) ∧
      t.bank = (u.bank.setDreg (ddReg dd) (s.readDm (s.addr false di))).setDreg (pdReg pd)
        ((s.readPm (s.addr true pi)).extractLsb' 8 16)) := by
  rw [dualTo_moved hu] at hj
  obtain ⟨t, ht, hframe, hmem, hpx, hdag, hastat, hbank⟩ := completes_moved (P := (· = _)) hj rfl
  exact ⟨t, ht, hframe, hmem, hastat, hdag, hpx, hbank⟩

/-- Settles O29: the reads alone are the reads beside a computation that leaves the state as it is. -/
theorem dualReads : Obligations.DualReads := fun _ _ cp _ _ _ _ s =>
  ⟨completes_dualTo (committed_self s) rfl, completes_dualTo (compute_committed s .result cp) rfl⟩

end Sys2Proof.Machine
end

section
/-!
PROOFS. Taking an interrupt, and returning from it at once: what an entry leaves in the sequencer, IMASK and the requests
(60_exceptions.md R521, R540, R542, R546).
-/

namespace Sys2Proof.Machine

/-! ### The parts of an entry -/

/-- The sequencer after an entry: a due pop first, then the two pushes. -/
theorem takeInterrupt_seq (s : State) (x : Source) : (s.takeInterrupt x).seq = { s.seq with
    pc := x.vector
    pcStk := (if s.lat.popDue then s.seq.pcStk.pop pcDepth else s.seq.pcStk).push pcDepth s.seq.pc
    stsStk := s.seq.stsStk.push s.cfg.stsDepth { astat := s.st.astat, mstat := s.st.mstat, imask := s.st.imask }
    prefetch := none } := by
  unfold State.takeInterrupt
  cases s.lat.popDue <;> rfl

/-- The vectors of the levels are four words apart, the highest level's first. -/
theorem vector_level (k : Fin 10) : (Source.level k).vector.toNat =
    [0x28, 0x24, 0x20, 0x1C, 0x18, 0x14, 0x10, 0x0C, 0x08, 0x04].getD k.val 0 := by
  revert k
  decide

/-- With nesting an entry clears in IMASK the levels up to its own, without it all of them. -/
theorem entryMask_level_bit (nesting : Bool) (imask : BitVec 10) (k : Fin 10) (j : Nat) :
    (entryMask nesting imask (.level k)).getLsbD j = (nesting && imask.getLsbD j && decide (k.val < j)) := by
  cases nesting with
  | false => simp [entryMask]
  | true =>
    by_cases hj : j < 10
    · have hmask : (BitVec.ofNat 10 (2 ^ (k.val + 1) - 1)).getLsbD j = !decide (k.val < j) := by
        rw [BitVec.getLsbD_ofNat, Nat.testBit_two_pow_sub_one]
        simp only [hj, decide_true, Bool.true_and, ← decide_not]
        exact decide_eq_decide.mpr (by omega)
      simp [entryMask, BitVec.getLsbD_and, BitVec.getLsbD_not, hmask, hj, -BitVec.getLsbD_eq_getElem]
    · have himask : imask.getLsbD j = false := BitVec.getLsbD_of_ge imask j (Nat.le_of_not_lt hj)
      simp [entryMask, BitVec.getLsbD_and, himask]

/-- The entry of a level changes of the requests the latches alone. -/
theorem entryIrq_level (s : State) (k : Fin 10) :
    s.entryIrq (.level k) = { s.irq with latch := (s.entryIrq (.level k)).latch } := by
  unfold State.entryIrq
  dsimp only
  split <;> rfl

/-- It clears its own request where that is latched. -/
theorem entryIrq_level_latch (s : State) (k : Fin 10) (j : Nat) : (s.entryIrq (.level k)).latch.getLsbD j =
    (s.irq.latch.getLsbD j && !(s.isEdge k.val && decide (j = k.val))) := by
  unfold State.entryIrq
  dsimp only
  split
  next hedge => by_cases hj : j = k.val <;> simp [getLsbD_putBit, hedge, hj, -BitVec.getLsbD_eq_getElem]
  next hedge => simp [hedge]

/-- Settles O48, from the equations of the sequencer, IMASK and the requests at an entry. -/
theorem interruptEntry : Obligations.InterruptEntry := by
  intro s x t
  have hseq : t.seq = _ := takeInterrupt_seq s x
  have hpc : t.seq.pc = x.vector := congrArg Seq.pc hseq
  have hmask : t.st.imask = entryMask (s.lat.icntlEff.getLsbD 4) s.st.imask x := rfl
  have hirq : t.irq = s.entryIrq x := rfl
  refine ⟨rfl, takeInterrupt_eq s x, ?seq, ?source⟩
  case seq => rw [hpc, hseq]
  case source =>
    rw [hpc, hmask, hirq]
    cases x with
    | powerdown => exact ⟨rfl, rfl, rfl⟩
    | level k => exact ⟨vector_level k, entryMask_level_bit _ _ k, entryIrq_level s k, entryIrq_level_latch s k⟩

/-! ### The return from an entry -/

theorem takeInterrupt_cfg (s : State) (x : Source) : (s.takeInterrupt x).cfg = s.cfg := by rw [takeInterrupt_eq]

theorem exec_rti_of_true {s : State} {c : Cond} (h : s.cond c = true) : exec (.rti c) s = .next s.returnInterrupt := if_pos h

/-- Settles O50: below their depths the two stacks give back what the entry pushed, and the pops undo the pushes. -/
theorem entryThenReturn : Obligations.EntryThenReturn := by
  intro s x hdue hpc0 hpc hsts0 hsts
  let u := s.takeInterrupt x
  have hrun : exec (.rti .always) u = .next u.returnInterrupt := exec_rti_of_true rfl
  have hcfg : u.cfg = s.cfg := takeInterrupt_cfg s x
  have hseq : u.seq = _ := takeInterrupt_seq s x
  have htop : u.topPc = s.seq.pc := by
    unfold State.topPc
    rw [hseq, hdue]
    exact Stack.top_push_below hpc0 hpc _ _
  have hentry : u.topSts = { astat := s.st.astat, mstat := s.st.mstat, imask := s.st.imask } := by
    unfold State.topSts
    rw [hseq, hcfg]
    exact Stack.top_push_below hsts0 hsts _ _
  have hpcPop : u.seq.pcStk.pop pcDepth = { s.seq.pcStk with flip := false } := by
    rw [hseq, hdue]
    exact Stack.pop_push_below hpc0 hpc _
  have hstsPop : u.seq.stsStk.pop u.cfg.stsDepth = { s.seq.stsStk with flip := false } := by
    rw [hseq, hcfg]
    exact Stack.pop_push_below hsts0 hsts _
  refine ⟨_, hrun, ?_⟩
  rw [returnInterrupt_eq, htop, hentry, hpcPop, hstsPop, hseq]
  have hframe : u = _ := takeInterrupt_eq s x
  rw [hframe]
  exact ⟨rfl, rfl, rfl, rfl, rfl, rfl, rfl⟩

end Sys2Proof.Machine
end

section
/-!
PROOFS. Interrupt requests: which one a boundary takes, and what the request pins and PWD do (60_exceptions.md R521 to R525, R541
to R545; 61_peripherals.md R641, R642; 70_reset_and_hazards.md R691).
-/

namespace Sys2Proof.Machine

/-! ### The interrupt taken -/

/-- In a list that falls the first element with a property is the greatest. -/
theorem find?_eq_some_iff_greatest {α : Type} [LinearOrder α] {l : List α} (hl : l.Pairwise (· > ·)) (p : α → Bool) (k : α) :
    l.find? p = some k ↔ k ∈ l ∧ p k = true ∧ ∀ j ∈ l, k < j → ¬p j = true := by
  induction l with
  | nil => simp
  | cons a l ih =>
    obtain ⟨hhead, htail⟩ := List.pairwise_cons.mp hl
    rw [List.find?_cons, List.forall_mem_cons, List.mem_cons]
    cases ha : p a with
    | true =>
      rw [Option.some.injEq]
      refine ⟨?_, fun ⟨hk, _, hgt, _⟩ => ?_⟩
      · rintro rfl
        exact ⟨.inl rfl, ha, fun h => absurd h (lt_irrefl _), fun j hj h => absurd h (lt_asymm (hhead j hj))⟩
      · exact (hk.resolve_right fun hk => hgt (hhead k hk) rfl).symm
    | false =>
      have hne (hp : p k = true) : k ≠ a := fun h => by simp [← h, hp] at ha
      rw [ih htail]
      exact ⟨fun ⟨hk, hp, hgt⟩ => ⟨.inr hk, hp, fun _ => by simp, hgt⟩,
        fun ⟨hk, hp, _, hgt⟩ => ⟨hk.resolve_left (hne hp), hp, hgt⟩⟩

theorem levels_falling : levels.Pairwise (· > ·) := by decide

theorem mem_levels (k : Fin 10) : k ∈ levels := by
  revert k
  decide

section
variable (s : State)

/-- The level is unmasked and pending. -/
def State.asks (k : Fin 10) : Bool := s.st.imask.getLsbD k.val && s.pending k.val

theorem asks_iff (k : Fin 10) : s.asks k = true ↔ s.st.imask.getLsbD k.val = true ∧ s.pending k.val = true :=
  Bool.and_eq_true_iff

theorem find?_asks_iff (k : Fin 10) : levels.find? s.asks = some k ↔ s.asks k = true ∧ ∀ j, k < j → ¬s.asks j = true := by
  simp only [find?_eq_some_iff_greatest levels_falling, mem_levels, true_and, true_imp_iff]

/-- The boundary's decision, in the order of R541 and R543. -/
theorem interrupt_eq : s.interrupt =
    if s.st.intEnable = true ∧ s.lat.imaskHold = false then
      if s.irq.latchPwd then some .powerdown else (levels.find? s.asks).map .level
    else none := by
  unfold State.interrupt
  simp only [Bool.and_eq_true, Bool.not_eq_true']
  rfl

theorem interrupt_powerdown_iff :
    s.interrupt = some .powerdown ↔ s.st.intEnable = true ∧ s.lat.imaskHold = false ∧ s.irq.latchPwd = true := by
  rw [interrupt_eq, ← and_assoc]
  by_cases hopen : s.st.intEnable = true ∧ s.lat.imaskHold = false
  · cases s.irq.latchPwd <;> simp [hopen]
  · simp [hopen]

theorem interrupt_level_iff (k : Fin 10) : s.interrupt = some (.level k) ↔
    s.st.intEnable = true ∧ s.lat.imaskHold = false ∧ s.irq.latchPwd = false ∧ levels.find? s.asks = some k := by
  rw [interrupt_eq, ← and_assoc]
  by_cases hopen : s.st.intEnable = true ∧ s.lat.imaskHold = false
  · cases s.irq.latchPwd <;> simp [hopen]
  · simp [hopen]

/-! ### Pending requests -/

variable {s} {k : Nat}

theorem pending_of_isEdge (h : s.isEdge k = true) :
    s.pending k = (s.irq.latch.getLsbD k && (k != 0 || s.irq.timerWait == 0)) := if_pos h

theorem pending_of_level_sensitive (h : s.isEdge k = false) : s.pending k = !s.irq.pins.getLsbD k := if_neg (by simp [h])

theorem pending_timer_iff : s.pending 0 = true ↔ s.irq.latch.getLsbD 0 = true ∧ s.irq.timerWait = 0 := by
  have h : s.isEdge 0 = true := rfl
  simp [pending_of_isEdge h]

/-! ### The request pins -/

theorem hasPin_iff (k : Nat) : hasPin k = true ↔ k ∈ [1, 2, 4, 7, 8, 9] := by
  simp only [hasPin, Bool.or_eq_true, beq_iff_eq, List.mem_cons, List.not_mem_nil, or_false]
  omega

variable (s)

/-- An edge of a pin counts where its level is latched and the pin is not SPORT1's. -/
theorem pinEdge_iff (hk : k ∈ [1, 2, 4, 7, 8, 9]) : s.pinEdge k = true ↔
    s.isEdge k = true ∧ ¬(k ∈ [1, 2] ∧ s.ctl.sysCtl.getLsbD 10 = true) := by
  simp only [List.mem_cons, List.not_mem_nil, or_false] at hk
  have hserial : s.sport1Serial = s.ctl.sysCtl.getLsbD 10 := rfl
  rcases hk with rfl | rfl | rfl | rfl | rfl | rfl
  · simp only [State.pinEdge, State.isEdge, hserial]
    cases s.ctl.sysCtl.getLsbD 10 <;> simp
  · simp only [State.pinEdge, State.isEdge, hserial]
    cases s.ctl.sysCtl.getLsbD 10 <;> simp
  all_goals simp [State.pinEdge, State.isEdge]

theorem takesEdge_iff : s.takesEdge = true ↔ s.core ≠ .inReset := bne_iff_ne

end

section
variable (s : State) (k : Fin 10) (high : Bool)

/-- A pin changes the levels and the latches alone. -/
theorem irqPinEvent_eq : s.irqPinEvent k high = { s with irq := { s.irq with
    pins := (s.irqPinEvent k high).irq.pins
    latch := (s.irqPinEvent k high).irq.latch } } := by
  unfold State.irqPinEvent
  dsimp only
  split
  · split <;> rfl
  · rfl

theorem irqPinEvent_pins (j : Fin 10) : (s.irqPinEvent k high).irq.pins.getLsbD j.val =
    if hasPin k.val = true ∧ j = k then high else s.irq.pins.getLsbD j.val := by
  have hput : (putBit s.irq.pins k.val high).getLsbD j.val = if j = k then high else s.irq.pins.getLsbD j.val := by
    simp only [getLsbD_putBit, k.isLt, and_true, Fin.ext_iff]
  unfold State.irqPinEvent
  dsimp only
  split
  next hpin =>
    simp only [hpin, true_and]
    split <;> exact hput
  next hpin => simp [hpin]

theorem irqPinEvent_latch (j : Fin 10) : (s.irqPinEvent k high).irq.latch.getLsbD j.val = true ↔
    s.irq.latch.getLsbD j.val = true ∨ (hasPin k.val = true ∧ j = k ∧ (s.pinEdge k.val = true ∧ s.takesEdge = true) ∧
      s.irq.pins.getLsbD k.val = true ∧ high = false) := by
  unfold State.irqPinEvent
  dsimp only
  split
  next hpin =>
    split
    next hfalls =>
      simp only [Bool.and_eq_true, Bool.not_eq_true'] at hfalls
      by_cases hj : j = k
      · simp [hj, State.setLatch, getLsbD_putBit, hpin, hfalls, -BitVec.getLsbD_eq_getElem]
      · simp [hj, State.setLatch, getLsbD_putBit, Fin.val_inj, -BitVec.getLsbD_eq_getElem]
    next hfalls =>
      simp only [Bool.and_eq_true, Bool.not_eq_true'] at hfalls
      refine (or_iff_left ?_).symm
      rintro ⟨_, _, ⟨hedge, htakes⟩, hwas, hlow⟩
      exact hfalls ⟨⟨⟨hwas, hlow⟩, hedge⟩, htakes⟩
  next hpin => simp [hpin]

end

/-! ### The events as steps -/

section
variable {s : State} {high : Bool} {rest : List Event}

theorem step_irqPin {k : Fin 10} (he : s.env = .irqPin k high :: rest) :
    step s = .next ((State.irqPinEvent { s with env := rest } k high).count 0) := by
  unfold step
  rw [he]
  rfl

theorem step_pwdPin (he : s.env = .pwdPin high :: rest) :
    step s = .next ((State.pwdPinEvent { s with env := rest } high).count 0) := by
  unfold step
  rw [he]
  rfl

end

/-- What the level of the PWD pin does to the requests: a falling edge outside reset asks for powerdown. -/
def State.pwdRequest (s : State) (high : Bool) : State :=
  let falls := s.irq.pwdPin && !high && s.core != .inReset
  { s with irq := { s.irq with
    pwdPin := high, latchPwd := s.irq.latchPwd || falls, pdForced := s.irq.pdForced && !falls } }

/-- A rising edge of PWD ends powerdown, any other level only asks. -/
theorem pwdPinEvent_eq (s : State) (high : Bool) : s.pwdPinEvent high =
    if s.irq.pwdPin = false ∧ high = true ∧ s.core = .powerDown then (s.pwdRequest high).powerUp else s.pwdRequest high := by
  unfold State.pwdPinEvent State.pwdRequest State.takesEdge
  dsimp only
  cases s.irq.pwdPin <;> cases high
  case false.false => simp
  case false.true => simp
  case true.false => by_cases hreset : s.core = .inReset <;> simp [hreset]
  case true.true => simp

theorem powerUp_of_pucr {s : State} (h : s.pucr = true) : s.powerUp = { s.contextReset with bg := s.br } := by
  unfold State.powerUp
  rw [if_pos h]

theorem powerUp_of_not_pucr {s : State} (h : ¬s.pucr = true) :
    s.powerUp = { s with core := .running, irq := { s.irq with pdSeq := false }, bg := s.br } := by
  unfold State.powerUp
  rw [if_neg h]

/-- Settles O49, from the boundary's decision, the levels' pending requests and the two events. -/
theorem interruptChoice : Obligations.InterruptChoice := by
  refine ⟨fun s k => ?choice, fun s k high rest he => ?pin, fun s high rest he => ?pwd⟩
  case choice =>
    refine ⟨interrupt_powerdown_iff s, ?_, fun hedge h0 => ?_, pending_of_level_sensitive, pending_timer_iff, rfl⟩
    · rw [interrupt_level_iff, find?_asks_iff]
      simp only [asks_iff, and_assoc]
    · have hk : k.val ≠ 0 := fun h => h0 (Fin.ext h)
      simp [pending_of_isEdge hedge, hk]
  case pin =>
    intro isPin latched
    let r : State := { s with env := rest }
    have hpin : hasPin k.val = true ↔ isPin := hasPin_iff k.val
    have hlatched (h : isPin) : (r.pinEdge k.val = true ∧ r.takesEdge = true) ↔ latched := by
      rw [pinEdge_iff r h, takesEdge_iff, and_assoc]
      rfl
    refine ⟨_, step_irqPin he, congrArg (State.count · 0) (irqPinEvent_eq r k high), fun j => ⟨?_, ?_⟩⟩
    · refine (irqPinEvent_pins r k high j).trans ?_
      simp only [hpin]
      rfl
    · refine (irqPinEvent_latch r k high j).trans ?_
      rw [hpin]
      exact or_congr_right (and_congr_right fun h => and_congr_right fun _ => and_congr_left fun _ => hlatched h)
  case pwd =>
    intro falls u
    let r : State := { s with env := rest }
    have hevent := pwdPinEvent_eq r high
    rw [step_pwdPin he]
    split
    next hup =>
      rw [hevent.trans (if_pos hup)]
      split
      next hpucr =>
        rw [powerUp_of_pucr (s := r.pwdRequest high) hpucr]
        rfl
      next hpucr =>
        rw [powerUp_of_not_pucr (s := r.pwdRequest high) hpucr]
        rfl
    next hup =>
      rw [hevent.trans (if_neg hup)]
      rfl

end Sys2Proof.Machine
end

section
/-!
PROOFS. The timer's period: the ticks left until the next request fall by one with every tick, and the last of them requests the
interrupt and reloads the count (60_exceptions.md R560 to R562).
-/

namespace Sys2Proof.Machine

/-! ### One tick -/

/-- The tick of a cycle that began with the count the timer has. -/
def State.tick (t : State) : State := t.timerTick t.timer.tcount

/-- The state with the timer at another count. -/
def State.withCounts (s : State) (count : Word) (prescale : BitVec 8) : State :=
  { s with timer := { s.timer with tcount := count, tps := prescale } }

section
variable (s : State) {count : Word} {prescale : BitVec 8}

/-- Below the scale a tick raises the prescale count. -/
theorem tick_below_scale (h : prescale < s.timer.tscale) :
    (s.withCounts count prescale).tick = s.withCounts count (prescale + 1) := if_neg (BitVec.not_le.mpr h)

variable (hset : s.lat.tcountSet = false)
include hset

/-- At the scale a tick restarts the prescale count and lowers the count. -/
theorem tick_at_scale (hcount : count ≠ 0) :
    (s.withCounts count s.timer.tscale).tick = s.withCounts (count - 1) 0 := by
  simp only [State.tick, State.timerTick, State.withCounts, hset, hcount, BitVec.le_refl, if_true, if_false,
    Bool.false_eq_true]

/-- With the count at 0 it reloads the count and requests the interrupt. -/
theorem tick_at_end : (s.withCounts 0 s.timer.tscale).tick = (s.withCounts s.timer.tperiod 0).timerRequest := by
  simp only [State.tick, State.timerTick, State.withCounts, hset, BitVec.le_refl, if_true, if_false, Bool.false_eq_true]

end

/-! ### The ticks left -/

/-- The ticks until the request, the tick that makes it included. -/
def ticksLeft (scale : BitVec 8) (count : Word) (prescale : BitVec 8) : Nat :=
  count.toNat * (scale.toNat + 1) + (scale.toNat - prescale.toNat) + 1

/-- `t` is `s` but for the counts of the timer, which has `n` ticks left. -/
def HasTicksLeft (s t : State) (n : Nat) : Prop :=
  ∃ count prescale, t = s.withCounts count prescale ∧ prescale ≤ s.timer.tscale ∧
    ticksLeft s.timer.tscale count prescale = n

theorem ticksLeft_below_scale {scale prescale : BitVec 8} (h : prescale < scale) (count : Word) :
    ticksLeft scale count (prescale + 1) + 1 = ticksLeft scale count prescale := by
  unfold ticksLeft
  have hstep : scale.toNat - (prescale + 1).toNat + 1 = scale.toNat - prescale.toNat := by bv_omega
  omega

theorem ticksLeft_at_scale {count : Word} (h : count ≠ 0) (scale : BitVec 8) :
    ticksLeft scale (count - 1) 0 + 1 = ticksLeft scale count scale := by
  have hcount : count.toNat = (count - 1).toNat + 1 := by bv_omega
  simp only [ticksLeft, hcount, Nat.succ_mul, BitVec.ofNat_eq_ofNat, BitVec.toNat_ofNat]
  omega

section
variable {s t : State} {n : Nat}

theorem HasTicksLeft.irq (h : HasTicksLeft s t n) : t.irq = s.irq := by
  obtain ⟨count, prescale, rfl, -⟩ := h
  rfl

/-- A count just reloaded has a whole period left. -/
theorem hasTicksLeft_period (hp : s.timer.tps = 0) (hc : s.timer.tcount = s.timer.tperiod) :
    HasTicksLeft s s ((s.timer.tperiod.toNat + 1) * (s.timer.tscale.toNat + 1)) := by
  refine ⟨s.timer.tcount, s.timer.tps, rfl, ?_, ?_⟩
  · rw [hp]
    bv_omega
  · rw [hp, hc, Nat.succ_mul]
    rfl

variable (hset : s.lat.tcountSet = false)
include hset

/-- A tick that is not the last leaves one tick less. -/
theorem HasTicksLeft.tick (h : HasTicksLeft s t (n + 1)) (hn : 0 < n) : HasTicksLeft s t.tick n := by
  obtain ⟨count, prescale, rfl, hle, hleft⟩ := h
  by_cases hlt : prescale < s.timer.tscale
  · refine ⟨count, prescale + 1, tick_below_scale s hlt, by bv_omega, ?_⟩
    have hstep := ticksLeft_below_scale hlt count
    omega
  · obtain rfl : prescale = s.timer.tscale := BitVec.le_antisymm hle (BitVec.not_lt.mp hlt)
    have hpos : count.toNat * (s.timer.tscale.toNat + 1) ≠ 0 := by unfold ticksLeft at hleft; omega
    have hcount : count ≠ 0 := by
      rintro rfl
      exact hpos (Nat.zero_mul _)
    refine ⟨count - 1, 0, tick_at_scale s hset hcount, by bv_omega, ?_⟩
    have hstep := ticksLeft_at_scale hcount s.timer.tscale
    omega

/-- The last tick reloads the count and requests the interrupt. -/
theorem HasTicksLeft.tick_last (h : HasTicksLeft s t 1) : t.tick = (s.withCounts s.timer.tperiod 0).timerRequest := by
  obtain ⟨count, prescale, rfl, hle, hleft⟩ := h
  have hcount : count.toNat * (s.timer.tscale.toNat + 1) = 0 := by unfold ticksLeft at hleft; omega
  have hzero : count = 0 := BitVec.eq_of_toNat_eq ((Nat.mul_eq_zero.mp hcount).resolve_right (Nat.succ_ne_zero _))
  have hscale : prescale = s.timer.tscale := by unfold ticksLeft at hleft; bv_omega
  rw [hzero, hscale, tick_at_end s hset]

/-- As long as ticks are left, each has lowered their number by one. -/
theorem HasTicksLeft.ticks {k : Nat} (h : HasTicksLeft s s k) (hn : n < k) :
    HasTicksLeft s (Nat.repeat State.tick n s) (k - n) := by
  induction n with
  | zero => exact h
  | succ n ih =>
    have hprev := ih (by omega)
    rw [show k - n = k - (n + 1) + 1 by omega] at hprev
    exact hprev.tick hset (by omega)

end

/-- A request that finds none latched is latched, and has its two cycles of synchronisation before it. -/
theorem timerRequest_first {t : State} (h : t.irq.latch.getLsbD 0 = false) :
    t.timerRequest.irq.latch.getLsbD 0 = true ∧ t.timerRequest.irq.timerWait = 2 := by
  constructor
  · rw [timerRequest_latch]
    simp
  · rw [timerRequest_irq, h]
    rfl

theorem timerRequest_timer (t : State) : t.timerRequest.timer = t.timer := by
  unfold State.timerRequest
  split <;> rfl

/-- Settles O52, by the ticks left: a whole period at first, one at its last tick. -/
theorem timerPeriod : Obligations.TimerPeriod := by
  intro s hps hcount hlatch hset ticks period
  have hleft : HasTicksLeft s s period := hasTicksLeft_period hps hcount
  have hbefore (n : Nat) (hn : n < period) : HasTicksLeft s (ticks n) (period - n) := hleft.ticks hset hn
  obtain ⟨last, hlast⟩ : ∃ n, period = n + 1 := Nat.exists_eq_succ_of_ne_zero (by simp [period])
  have hone : HasTicksLeft s (ticks last) 1 := by
    have hprev := hbefore last (by omega)
    rwa [hlast, Nat.add_sub_cancel_left] at hprev
  have hend : ticks period = (s.withCounts s.timer.tperiod 0).timerRequest := by
    rw [hlast]
    exact hone.tick_last hset
  refine ⟨fun n hn => ?_, ?_⟩
  · rw [(hbefore n hn).irq, hlatch]
  · obtain ⟨hrequest, hwait⟩ := timerRequest_first (t := s.withCounts s.timer.tperiod 0) hlatch
    rw [hend]
    refine ⟨hrequest, hwait, ?_⟩
    rw [timerRequest_timer, ← hcount, ← hps]
    rfl

end Sys2Proof.Machine
end

section
/-!
PROOFS. The context reset, field by field (70_reset_and_hazards.md R684; 10_state.md R81).
-/

namespace Sys2Proof.Machine

/-- The mask of the context reset takes both autobuffer enables and no other bit (10_state.md R48). -/
theorem autobuffer_cleared (auto : Word) : (auto &&& 0xFFFC).getLsbD 0 = false ∧ (auto &&& 0xFFFC).getLsbD 1 = false := by
  simp only [BitVec.getLsbD_and]
  exact ⟨Bool.and_false _, Bool.and_false _⟩

/-- Settles O59: the reset is one update of the state, so each value stands in it but for SSTAT, read from the empty stacks, and
the autobuffer enables, which its mask takes. -/
theorem contextReset : Obligations.ContextReset := by
  intro s t
  obtain ⟨hr0, ht0⟩ := autobuffer_cleared s.sp0.auto
  obtain ⟨hr1, ht1⟩ := autobuffer_cleared s.sp1.auto
  exact ⟨rfl, sstat_of_empty rfl rfl rfl rfl, rfl, rfl, rfl, rfl, rfl, rfl, rfl, rfl, rfl, rfl, ⟨ht0, hr0, ht1, hr1⟩,
    ⟨rfl, rfl, rfl, rfl⟩, ⟨rfl, rfl, rfl, rfl, rfl, rfl, rfl, rfl, rfl⟩, rfl, rfl⟩

end Sys2Proof.Machine
end

section
/-!
PROOFS. Serial words: the port a word reaches, the bits of a word of a length, and the words received and taken, one at a time and
in the slots of a multichannel block (62_serial_ports.md R584 to R602).
-/

namespace Sys2Proof.Machine

/-! ### A port replaced, and its request -/

section
variable (s : State) (n : Fin 2) (p : Sport)

@[simp] theorem setSport_sport_self : (s.setSport n p).sport n = p := by
  unfold State.sport State.setSport
  split <;> rfl

theorem setSport_sport_other {m : Fin 2} (h : m ≠ n) : (s.setSport n p).sport m = s.sport m := by
  unfold State.sport State.setSport
  split
  · split
    · omega
    · rfl
  · split
    · rfl
    · omega

/-- The request of a level made, where `b` says so. -/
def State.requestIf (b : Bool) (k : Nat) : State := if b then s.setLatch k else s

theorem requestIf_not (b : Bool) (k : Nat) : s.requestIf (!b) k = if b then s else s.setLatch k := by cases b <;> rfl

/-- A request changes the request latches alone. -/
theorem requestIf_eq (b : Bool) (k : Nat) :
    s.requestIf b k = { s with irq := { s.irq with latch := (s.requestIf b k).irq.latch } } := by
  cases b <;> rfl

theorem requestIf_latch (b : Bool) {k : Nat} (hk : k < 10) (j : Nat) :
    (s.requestIf b k).irq.latch.getLsbD j = (s.irq.latch.getLsbD j || (b && decide (j = k))) := by
  cases b with
  | false => simp [State.requestIf]
  | true =>
    have h : (s.requestIf true k).irq.latch = putBit s.irq.latch k true := rfl
    rw [h, getLsbD_putBit]
    by_cases hj : j = k <;> simp [hj, hk]

@[simp] theorem requestIf_sport (b : Bool) (k : Nat) (m : Fin 2) : (s.requestIf b k).sport m = s.sport m := by
  cases b <;> rfl

/-- A port replaced and a request made change the ports and the request latches. -/
theorem setSport_requestIf_eq (b : Bool) (k : Nat) : (s.setSport n p).requestIf b k = { s with
    sp0 := ((s.setSport n p).requestIf b k).sp0
    sp1 := ((s.setSport n p).requestIf b k).sp1
    irq := { s.irq with latch := ((s.setSport n p).requestIf b k).irq.latch } } := by
  rw [requestIf_eq, setSport_eq]

theorem rxLevel_lt : rxLevel n < 10 := by
  unfold rxLevel
  split <;> decide

theorem txLevel_lt : txLevel n < 10 := by
  unfold txLevel
  split <;> decide

end

/-! ### Words of a length -/

theorem len_bounds (p : Sport) : 1 ≤ p.len ∧ p.len ≤ 16 := by
  have h : field p.ctl 0 4 < 2 ^ 4 := Nat.mod_lt _ (by decide)
  unfold Sport.len
  omega

theorem lowBits_bit (len : Nat) (w : Word) (k : Nat) : (lowBits len w).getLsbD k = (decide (k < len) && w.getLsbD k) := by
  have hw : 16 ≤ k → w.getLsbD k = false := fun h => BitVec.getLsbD_of_ge w k h
  unfold lowBits
  rw [BitVec.getLsbD_ofNat, Nat.testBit_mod_two_pow, BitVec.testBit_toNat]
  by_cases hk : k < 16
  · simp [hk]
  · simp [hk, hw (Nat.le_of_not_lt hk)]

/-- The ones of a word above its `n` low bits. -/
theorem upperOnes_bit {n k : Nat} (hn : n ≤ 16) (hk : k < 16) :
    (BitVec.ofNat 16 (65536 - 2 ^ n)).getLsbD k = decide (n ≤ k) := by
  have hpos : 0 < 2 ^ n := Nat.two_pow_pos n
  have hle : 2 ^ n ≤ 2 ^ 16 := Nat.pow_le_pow_right (by decide) hn
  have h : 65536 - 2 ^ n = 2 ^ 16 - (2 ^ n - 1 + 1) := by omega
  rw [BitVec.getLsbD_ofNat, h, Nat.testBit_two_pow_sub_succ (by omega), Nat.testBit_two_pow_sub_one]
  rw [decide_eq_true hk, Bool.true_and, Bool.true_and, ← decide_not, decide_eq_decide, Nat.not_lt]

/-- A word received without companding: its low bits, and above them zeros or, as DTYPE says, its sign. -/
theorem formatRx_bit {p : Sport} (h : p.companding = false) (w : Word) {k : Nat} (hk : k < 16) :
    (p.formatRx w).getLsbD k = if k < p.len then w.getLsbD k else p.aLaw && w.getLsbD (p.len - 1) := by
  obtain ⟨hpos, hle⟩ := len_bounds p
  have hsign : (lowBits p.len w).getLsbD (p.len - 1) = w.getLsbD (p.len - 1) := by
    rw [lowBits_bit, decide_eq_true (by omega), Bool.true_and]
  unfold Sport.formatRx
  simp only [h, Bool.false_eq_true, if_false, hsign]
  split
  next hs =>
    rw [BitVec.getLsbD_or, lowBits_bit, upperOnes_bit hle hk, hs]
    by_cases hl : k < p.len
    · simp [hl]
    · simp [hl, Nat.le_of_not_lt hl]
  next hs =>
    rw [lowBits_bit, Bool.eq_false_of_not_eq_true hs]
    by_cases hl : k < p.len <;> simp [hl]

theorem formatRx_companded {p : Sport} (h : p.companding = true) (w : Word) : p.formatRx w =
    if p.aLaw then expandA ((lowBits p.len w).setWidth 8) else expandMu ((lowBits p.len w).setWidth 8) := if_pos h

/-! ### A word received -/

/-- What the port `q` has of the word `w` that the port `p` received (62_serial_ports.md R584, R594). -/
def Sport.Received (p : Sport) (w : Word) (q : Sport) : Prop :=
  q.rsr = lowBits p.len w ∧
  (p.companding = false → ∀ k, k < 16 →
    q.rx.getLsbD k = if k < p.len then w.getLsbD k else p.aLaw && w.getLsbD (p.len - 1)) ∧
  (p.companding = true → q.rx =
    if p.aLaw then expandA ((lowBits p.len w).setWidth 8) else expandMu ((lowBits p.len w).setWidth 8))

section
variable (s : State) (n : Fin 2) (w : Word)

/-- A port after a word. -/
def State.rxPort : Sport :=
  let p := s.sport n
  let mixed := p.transit == .mixed
  { p with
    rsr := if mixed then Config.free 16 s.freeCtr .serialWord (2 + n.val) else lowBits p.len w
    rx := if mixed then Config.free 16 s.freeCtr .serialWord (4 + n.val) else p.formatRx w
    transit := .idle, expNew := false, expDue := false
    expBusy := p.expBusy || p.companding, rxReq := p.rxReq || p.rbuf }

theorem rxWord_eq : s.rxWord n w = (s.setSport n (s.rxPort n w)).requestIf (!(s.sport n).rbuf) (rxLevel n) :=
  (requestIf_not _ _ _).symm

theorem rxPort_received (h : (s.sport n).transit ≠ .mixed) : (s.sport n).Received w (s.rxPort n w) := by
  have hm : ((s.sport n).transit == .mixed) = false := beq_false_of_ne h
  have hrsr : (s.rxPort n w).rsr = lowBits (s.sport n).len w := by simp only [State.rxPort, hm, Bool.false_eq_true, if_false]
  have hrx : (s.rxPort n w).rx = (s.sport n).formatRx w := by simp only [State.rxPort, hm, Bool.false_eq_true, if_false]
  exact ⟨hrsr, fun hc k hk => hrx ▸ formatRx_bit hc w hk, fun hc => hrx.trans (formatRx_companded hc w)⟩

/-! ### A word taken for transmission -/

/-- A port after its word is taken. -/
def State.txPort : Sport :=
  let p := s.sport n
  { p with tsr := lowBits p.len p.tx, txFull := false, txReq := p.txReq || p.tbuf }

theorem txTake_eq : s.txTake n = (s.setSport n (s.txPort n)).requestIf (!(s.sport n).tbuf) (txLevel n) :=
  (requestIf_not _ _ _).symm

theorem canTake_iff : s.canTake n = true ↔ (s.sport n).compNew = false ∧ (s.sport n).compDue = false ∧
    ((s.sport n).itfs = true → (s.sport n).txFull = true ∧ s.core ≠ .powerDown) := by
  unfold State.canTake
  dsimp only
  cases (s.sport n).itfs <;> simp [and_assoc]

/-! ### The events of a port -/

variable {s n} (ha : s.serialActive n = true) (hm : n = 0 → s.mce = false)
include ha hm

/-- An active port takes words one at a time, but port 0 in multichannel mode. -/
theorem takesWords : (s.serialActive n && !(decide (n = 0) && s.mce)) = true := by
  by_cases h0 : n = 0
  · simp [ha, hm h0]
  · simp [ha, h0]

variable (hl : (s.sport n).badLen = false)
include hl

theorem sportRxEvent_active : s.sportRxEvent n w = .next (s.rxWord n w) := by
  unfold State.sportRxEvent
  rw [if_pos (takesWords ha hm), hl]
  rfl

theorem sportTxEvent_active : s.sportTxEvent n = .next (if s.canTake n then s.txTake n else s) := by
  unfold State.sportTxEvent
  rw [if_pos (takesWords ha hm), hl]
  cases s.canTake n <;> rfl

end

/-- Settles O55, by the equation of the word taken; `canTake` says when one is. -/
theorem serialTransmit : Obligations.SerialTransmit := by
  intro n s ha hm hl p
  rw [sportTxEvent_active ha hm hl]
  refine ⟨fun hnot => ?nothing, fun hnew hdue hsync => ?taken⟩
  case nothing =>
    have h : ¬s.canTake n = true := by
      rw [canTake_iff]
      rintro ⟨hnew, hdue, hsync⟩
      obtain h | h | ⟨hi, h⟩ := hnot
      · exact absurd (h.symm.trans hnew) (by decide)
      · exact absurd (h.symm.trans hdue) (by decide)
      · obtain ⟨hfull, hcore⟩ := hsync hi
        exact h.elim (fun h => absurd (h.symm.trans hfull) (by decide)) hcore
    rw [if_neg h]
  case taken =>
    have h : s.canTake n = true := (canTake_iff s n).mpr ⟨hnew, hdue, hsync⟩
    have hport : (s.txTake n).sport n = s.txPort n := by simp [txTake_eq]
    rw [if_pos h]
    refine ⟨_, rfl, ?_, fun m hmn => ?_, ?_, fun k _ => ?_, fun k => ?_⟩
    · rw [txTake_eq]
      exact setSport_requestIf_eq s n _ _ _
    · rw [txTake_eq, requestIf_sport, setSport_sport_other s n _ hmn]
    · rw [hport]
      rfl
    · rw [hport]
      exact lowBits_bit _ _ _
    · rw [txTake_eq, requestIf_latch _ _ (txLevel_lt n), setSport_irq]

/-! ### The slots of a multichannel block -/

section
variable (s : State) (b : Bool) (w : Word)

/-- Port 0 transmits in a slot, where `b` says so. -/
def State.slotTx : State := if b then s.txTake 0 else s

/-- Port 0 receives in a slot, where `b` says so. -/
def State.slotRx : State := if b then s.rxWord 0 w else s

theorem slotTx_eq : s.slotTx b = { s with
    sp0 := { s.sp0 with
      tsr := if b then lowBits s.sp0.len s.sp0.tx else s.sp0.tsr
      txFull := s.sp0.txFull && !b
      txReq := s.sp0.txReq || (b && s.sp0.tbuf) }
    irq := { s.irq with latch := (s.slotTx b).irq.latch } } := by
  cases b with
  | false => simp [State.slotTx]
  | true =>
    have h : s.slotTx true = _ := (txTake_eq s 0).trans (requestIf_eq _ _ _)
    rw [h]
    simp [State.setSport, State.txPort, State.sport]

theorem slotTx_latch (j : Nat) :
    (s.slotTx b).irq.latch.getLsbD j = (s.irq.latch.getLsbD j || (b && !s.sp0.tbuf && decide (j = 6))) := by
  cases b with
  | false => simp [State.slotTx]
  | true =>
    have h : s.slotTx true = _ := txTake_eq s 0
    rw [h, requestIf_latch _ _ (txLevel_lt 0)]
    rfl

theorem slotRx_eq : s.slotRx b w = { s with
    sp0 := { s.sp0 with
      rx := (s.slotRx b w).sp0.rx
      rsr := (s.slotRx b w).sp0.rsr
      transit := if b then .idle else s.sp0.transit
      expNew := s.sp0.expNew && !b
      expDue := s.sp0.expDue && !b
      expBusy := s.sp0.expBusy || (b && s.sp0.companding)
      rxReq := s.sp0.rxReq || (b && s.sp0.rbuf) }
    irq := { s.irq with latch := (s.slotRx b w).irq.latch } } := by
  cases b with
  | false => simp [State.slotRx]
  | true =>
    have h : s.slotRx true w = _ := (rxWord_eq s 0 w).trans (requestIf_eq _ _ _)
    rw [h]
    simp [State.setSport, State.rxPort, State.sport]

theorem slotRx_latch (j : Nat) :
    (s.slotRx b w).irq.latch.getLsbD j = (s.irq.latch.getLsbD j || (b && !s.sp0.rbuf && decide (j = 5))) := by
  cases b with
  | false => simp [State.slotRx]
  | true =>
    have h : s.slotRx true w = _ := rxWord_eq s 0 w
    rw [h, requestIf_latch _ _ (rxLevel_lt 0)]
    rfl

theorem slotRx_received (h : s.sp0.transit ≠ .mixed) : s.sp0.Received w (s.slotRx true w).sp0 := by
  have hp : (s.slotRx true w).sp0 = s.rxPort 0 w := by
    have hs : (s.rxWord 0 w).sport 0 = s.rxPort 0 w := by simp [rxWord_eq]
    exact hs
  rw [hp]
  exact rxPort_received s 0 w h

/-- TX0 is taken in this slot. -/
def State.slotTakes : Bool := s.mc.txEn.getLsbD s.mc.slot && !s.sp0.compNew && !s.sp0.compDue

/-- A word is received in this slot. -/
def State.slotGets : Bool := s.mc.rxEn.getLsbD s.mc.slot

/-- Both directions of a slot. -/
def State.slotBoth : State := (s.slotTx s.slotTakes).slotRx s.slotGets w

theorem slotBoth_eq : s.slotBoth w = { s with
    sp0 := (s.slotBoth w).sp0
    irq := { s.irq with latch := (s.slotBoth w).irq.latch } } := by
  have htx := slotTx_eq s s.slotTakes
  have hrx := slotRx_eq (s.slotTx s.slotTakes) s.slotGets w
  unfold State.slotBoth
  generalize s.slotTx s.slotTakes = t at htx hrx ⊢
  generalize t.slotRx s.slotGets w = u at hrx ⊢
  rw [hrx, htx]

theorem slotBoth_sp0 : (s.slotBoth w).sp0 = { s.sp0 with
    rx := (s.slotBoth w).sp0.rx
    rsr := (s.slotBoth w).sp0.rsr
    transit := (s.slotBoth w).sp0.transit
    expNew := s.sp0.expNew && !s.slotGets
    expDue := s.sp0.expDue && !s.slotGets
    expBusy := s.sp0.expBusy || (s.slotGets && s.sp0.companding)
    rxReq := s.sp0.rxReq || (s.slotGets && s.sp0.rbuf)
    tsr := if s.slotTakes then lowBits s.sp0.len s.sp0.tx else s.sp0.tsr
    txFull := s.sp0.txFull && !s.slotTakes
    txReq := s.sp0.txReq || (s.slotTakes && s.sp0.tbuf) } := by
  have htx := slotTx_eq s s.slotTakes
  have hrx := slotRx_eq (s.slotTx s.slotTakes) s.slotGets w
  unfold State.slotBoth
  generalize s.slotTx s.slotTakes = t at htx hrx ⊢
  generalize t.slotRx s.slotGets w = u at hrx ⊢
  rw [hrx, htx]
  rfl

theorem slotBoth_latch (j : Nat) : (s.slotBoth w).irq.latch.getLsbD j = (s.irq.latch.getLsbD j ||
    (s.slotGets && !s.sp0.rbuf && decide (j = 5)) || (s.slotTakes && !s.sp0.tbuf && decide (j = 6))) := by
  have hrbuf : (s.slotTx s.slotTakes).sp0.rbuf = s.sp0.rbuf := by rw [slotTx_eq]; rfl
  refine (slotRx_latch (s.slotTx s.slotTakes) s.slotGets w j).trans ?_
  rw [slotTx_latch, hrbuf, Bool.or_right_comm]

theorem slotBoth_received : if s.slotGets then s.sp0.transit ≠ .mixed → s.sp0.Received w (s.slotBoth w).sp0
    else (s.slotBoth w).sp0.rx = s.sp0.rx ∧ (s.slotBoth w).sp0.rsr = s.sp0.rsr := by
  unfold State.slotBoth
  cases s.slotGets with
  | false => rw [State.slotRx, slotTx_eq]; exact ⟨rfl, rfl⟩
  | true =>
    intro hmixed
    have h := slotRx_received (s.slotTx s.slotTakes) w
    have hsp0 := congrArg State.sp0 (slotTx_eq s s.slotTakes)
    rw [hsp0] at h
    exact h hmixed

variable {s}

theorem mcSlotEvent_passed (h : s.mcLen ≤ s.mc.slot) : s.mcSlotEvent w = .next s := by
  unfold State.mcSlotEvent
  rw [decide_eq_false (Nat.not_lt_of_le h), Bool.and_false]
  rfl

theorem mcSlotEvent_within (ha : s.serialActive 0 = true) (hm : s.mce = true) (hl : s.sp0.badLen = false)
    (h : s.mc.slot < s.mcLen) : s.mcSlotEvent w = .next { s.slotBoth w with
      mc := { (s.slotBoth w).mc with slot := s.mc.slot + 1 }
      sp0 := { (s.slotBoth w).sp0 with transit := .idle } } := by
  unfold State.mcSlotEvent
  rw [ha, hm, decide_eq_true h, hl]
  rfl

theorem step_mcSlot {rest : List Event} (he : s.env = .mcSlot w :: rest) :
    step s = eventDone (State.mcSlotEvent { s with env := rest } w) := by
  unfold step
  rw [he]
  rfl

theorem step_mcSync {rest : List Event} (he : s.env = .mcSync :: rest) (ha : s.serialActive 0 = true) (hm : s.mce = true) :
    step s = .next { s with env := rest, freeCtr := s.freeCtr + 1, mc := { s.mc with slot := 0 } } := by
  have hb : (State.serialActive { s with env := rest } 0 && State.mce { s with env := rest }) = true :=
    Bool.and_eq_true_iff.mpr ⟨ha, hm⟩
  have h : State.mcSyncEvent { s with env := rest } = { s with env := rest, mc := { s.mc with slot := 0 } } := if_pos hb
  unfold step
  rw [he]
  exact congrArg (fun t : State => Host.Outcome.next (t.count 0)) h

theorem step_sportRxStart {rest : List Event} {n : Fin 2} (he : s.env = .sportRxStart n :: rest)
    (ha : s.serialActive n = true) : step s = .next (State.setSport { s with env := rest, freeCtr := s.freeCtr + 1 } n
      { s.sport n with transit := .shifting }) := by
  have h : State.sportRxStartEvent { s with env := rest } n =
      State.setSport { s with env := rest } n { s.sport n with transit := .shifting } := if_pos ha
  have hc (p : Sport) : (State.setSport { s with env := rest } n p).count 0 =
      State.setSport { s with env := rest, freeCtr := s.freeCtr + 1 } n p := by
    unfold State.setSport
    split <;> rfl
  unfold step
  rw [he]
  exact congrArg Host.Outcome.next ((congrArg (State.count · 0) h).trans (hc _))

end

/-! ### A control register written under a word -/

/-- A control register written: a format or framing field changed makes a word that has begun any value. -/
theorem writeCtl_transit (p : Sport) (on : Bool) (fields v free : Word) :
    let touched := on && (v ^^^ p.ctl) &&& fields != 0
    let q := p.writeCtl on fields v free
    q = { p with
      ctl := v, tsr := q.tsr, transit := if p.transit = .shifting ∧ touched = true then .mixed else p.transit } ∧
    (touched = false → q.tsr = p.tsr) := by
  unfold Sport.writeCtl
  dsimp only
  rw [BitVec.xor_comm v p.ctl]
  cases on && (p.ctl ^^^ v) &&& fields != 0 <;> simp [and_comm]

/-- Settles O54: one word by the equation of the word received, a slot by those of its two directions, the rest by those of the
events and of the control register. -/
theorem serialReceive : Obligations.SerialReceive := by
  unfold Obligations.SerialReceive
  intro received
  refine ⟨fun n w s ha hm hl => ?word, fun s w rest he ha hm hl => ⟨fun hk => ?passed, fun hk => ?slot⟩,
    fun s rest he ha hm => step_mcSync he ha hm, fun n s rest he ha => step_sportRxStart he ha, fun s v => ?control⟩
  case word =>
    have hport : (s.rxWord n w).sport n = s.rxPort n w := by simp [rxWord_eq]
    refine ⟨_, sportRxEvent_active w ha hm hl, ?_, fun m hmn => ?_, ?_, fun hmixed => ?_, fun k => ?_⟩
    · rw [rxWord_eq]
      exact setSport_requestIf_eq s n _ _ _
    · rw [rxWord_eq, requestIf_sport, setSport_sport_other s n _ hmn]
    · rw [hport]
      rfl
    · rw [hport]
      exact rxPort_received s n w hmixed
    · rw [rxWord_eq, requestIf_latch _ _ (rxLevel_lt n), setSport_irq]
  case passed => rw [step_mcSlot w he, mcSlotEvent_passed (s := { s with env := rest }) w hk]; rfl
  case slot =>
    let r : State := { s with env := rest }
    have hstep : step s = _ := (step_mcSlot w he).trans
      (congrArg eventDone (mcSlotEvent_within (s := r) w ha hm hl hk))
    refine ⟨_, hstep, ?_, ?_, slotBoth_received r w, slotBoth_latch r w⟩
    · rw [slotBoth_eq r w]
      rfl
    · exact congrArg (fun q : Sport => { q with transit := .idle }) (slotBoth_sp0 r w)
  case control => exact ⟨⟨(writeCtl_transit _ _ _ v _).1, (writeCtl_transit _ _ _ v _).2, rfl⟩,
      (writeCtl_transit _ _ _ v _).1, (writeCtl_transit _ _ _ v _).2, rfl⟩

end Sys2Proof.Machine
end

section
/-!
PROOFS. The IDMA port: what each access does to memory and to the port, which accesses wait, and the release of an IDMA boot
(61_peripherals.md R626 to R634; 70_reset_and_hazards.md R683).
-/

namespace Sys2Proof.Machine

/-! ### Words that a device writes at a place -/

section
variable {s t : State} {l : Loc}

/-- A word a device writes to a place of Program Memory: its three bytes read as written and the others as before. -/
theorem pmIntWrite_stored (h : Memory.wf s.mem = true) {w : PmWord} (ht : t.mem = (s.pmIntWrite (some l) w).mem) :
    memGet24 t.mem l.base = w ∧ SameMemBut s t l.base 3 := by
  have hm : t.mem = memSet24 s.mem l.base w := ht
  rw [hm]
  exact ⟨memGet24_memSet24 h _ w, fun a ha => by rw [hm, memGet_memSet24_other _ _ (by omega)]⟩

/-- A word a device writes to a place of Data Memory: its two bytes read as written and the others as before. -/
theorem dmIntWrite_stored (h : Memory.wf s.mem = true) {w : Word} (ht : t.mem = (s.dmIntWrite (some l) w).mem) :
    memGet16 t.mem l.base = w ∧ SameMemBut s t l.base 2 := by
  have hm : t.mem = memSet16 s.mem l.base w := ht
  rw [hm]
  exact ⟨memGet16_memSet16 h _ w, fun a ha => by rw [hm, memGet_memSet16_other _ _ (by omega)]⟩

end

/-- A write to a place of Program Memory changes memory alone. -/
theorem pmIntWrite_eq (s : State) (l : Option Loc) (w : PmWord) :
    s.pmIntWrite l w = { s with mem := (s.pmIntWrite l w).mem } := by cases l <;> rfl

/-- A write to a place of Data Memory changes memory alone. -/
theorem dmIntWrite_eq (s : State) (l : Option Loc) (w : Word) :
    s.dmIntWrite l w = { s with mem := (s.dmIntWrite l w).mem } := by cases l <;> rfl

/-! ### The release of an IDMA boot -/

section
variable {s : State} {a : Addr}

theorem idmaRelease_of_ne (h : s.core ≠ .heldIdma) : s.idmaRelease a = s := if_neg (by simp [h])

theorem idmaRelease_held (h : s.core = .heldIdma) : s.idmaRelease a =
    if a = 0 then { s with core := .running, seq := { s.seq with pc := 0, prefetch := none } } else s := by
  unfold State.idmaRelease
  simp only [h, beq_self_eq_true, Bool.true_and, beq_iff_eq]

end

/-! ### One access, by the memory and the half -/

section
variable {s : State}

theorem idmaStep_readDm (h : s.idma.toDm = true) : s.idmaStep .read = .next (s.setIdma { s.idma with
    out := s.dmIntRead (s.dmDma s.idDm s.idma.addr) (Config.free 16 s.freeCtr .idmaRead 0)
    addr := s.idma.addr + 1 }) := if_pos h

theorem idmaStep_writeDm (h : s.idma.toDm = true) (v : Word) : s.idmaStep (.write v) = .next
    ((s.dmIntWrite (s.dmDma s.idDm s.idma.addr) v).setIdma { s.idma with addr := s.idma.addr + 1 }) := if_pos h

variable (h : s.idma.toDm = false)
include h

theorem idmaStep_read_first (hh : s.idma.half = .first) : s.idmaStep .read = .next (s.setIdma { s.idma with
    readBuf := s.pmIntRead (s.pmDma s.idPm s.idma.addr) (Config.free 24 s.freeCtr .idmaRead 1)
    half := .secondRead
    out := (s.pmIntRead (s.pmDma s.idPm s.idma.addr) (Config.free 24 s.freeCtr .idmaRead 1)).extractLsb' 8 16 }) := by
  simp only [State.idmaStep, State.idmaReadStep, h, hh, Bool.false_eq_true, if_false]

theorem idmaStep_read_second (hh : s.idma.half = .secondRead) : s.idmaStep .read = .next (s.setIdma { s.idma with
    out := (s.idma.readBuf.extractLsb' 0 8).setWidth 16, half := .first, addr := s.idma.addr + 1 }) := by
  simp only [State.idmaStep, State.idmaReadStep, h, hh, Bool.false_eq_true, if_false]

theorem idmaStep_write_first (hh : s.idma.half = .first) (v : Word) : s.idmaStep (.write v) =
    .next (s.setIdma { s.idma with holding := v, half := .secondWrite }) := by
  simp only [State.idmaStep, State.idmaWriteStep, h, hh, Bool.false_eq_true, if_false]

theorem idmaStep_write_second (hh : s.idma.half = .secondWrite) (v : Word) : s.idmaStep (.write v) =
    .next (((s.pmIntWrite (s.pmDma s.idPm s.idma.addr) (s.idma.holding ++ v.extractLsb' 0 8)).setIdma
      { s.idma with half := .first, addr := s.idma.addr + 1 }).idmaRelease s.idma.addr) := by
  simp only [State.idmaStep, State.idmaWriteStep, h, hh, Bool.false_eq_true, if_false]

end

/-! ### Words through the port -/

section
variable {s : State} {l : Loc}

/-- Two host writes to Program Memory, the core not held for an IDMA boot: the first half waits in the port, the second stores
the word. -/
theorem idma_writes_pm (hd : s.idma.toDm = false) (hh : s.idma.half = .first) (hc : s.core ≠ .heldIdma)
    (hl : s.pmDma s.idPm s.idma.addr = some l) (hi lo : Word) :
    s.idmaStep (.write hi) = .next (s.setIdma { s.idma with holding := hi, half := .secondWrite }) ∧
    (s.setIdma { s.idma with holding := hi, half := .secondWrite }).idmaStep (.write lo) =
      .next ((s.pmIntWrite (some l) (hi ++ lo.extractLsb' 0 8)).setIdma
        { s.idma with holding := hi, half := .first, addr := s.idma.addr + 1 }) := by
  let t : State := s.setIdma { s.idma with holding := hi, half := .secondWrite }
  have hlt : t.pmDma t.idPm t.idma.addr = some l := hl
  refine ⟨idmaStep_write_first hd hh hi, (idmaStep_write_second (s := t) hd rfl lo).trans (congrArg Host.Outcome.next ?_)⟩
  rw [hlt, idmaRelease_of_ne (by exact hc)]
  rfl

/-- Two host reads of Program Memory: the word is read whole, and given in two halves. -/
theorem idma_reads_pm (hd : s.idma.toDm = false) (hh : s.idma.half = .first)
    (hl : s.pmDma s.idPm s.idma.addr = some l) : ∃ r q, s.idmaStep .read = .next r ∧
      r.idma.out = (memGet24 s.mem l.base).extractLsb' 8 16 ∧ r.idmaStep .read = .next q ∧
      q.idma.out = ((memGet24 s.mem l.base).extractLsb' 0 8).setWidth 16 ∧ q.idma.addr = s.idma.addr + 1 := by
  have hfirst : s.idmaStep .read = .next (s.setIdma { s.idma with
      readBuf := memGet24 s.mem l.base, half := .secondRead, out := (memGet24 s.mem l.base).extractLsb' 8 16 }) := by
    rw [idmaStep_read_first hd hh, hl]
    rfl
  exact ⟨_, _, hfirst, rfl, idmaStep_read_second hd rfl, rfl, rfl⟩

/-! ### The accesses that wait -/

/-- At a boundary of the running core an access waits or is done at once. -/
theorem idmaEvent_running (hc : s.core = .running) (hp : s.hasIdmaPort = true) (hn : s.idma.pend = none) (op : IdmaOp) :
    s.idmaEvent op =
      if s.idma.steals op then .next (s.setIdma { s.idma with pend := some op }) else s.idmaStep op := by
  have hs : s.idma.pend.isSome = false := by rw [hn]; rfl
  unfold State.idmaEvent
  rw [hc, hp, hs]
  cases s.idma.steals op <;> rfl

theorem steals_read_iff (d : Idma) : d.steals .read = true ↔ d.toDm = true ∨ d.half ≠ .secondRead := by
  simp [Idma.steals]

theorem steals_write_iff (d : Idma) (v : Word) : d.steals (.write v) = true ↔ d.toDm = true ∨ d.half ≠ .first := by
  simp [Idma.steals]

/-! ### A latch -/

theorem idmaStep_latch_addr {v : Word} (h : s.cfg.member.hasIdmaOvl = false ∨ v.getLsbD 15 = false) :
    s.idmaStep (.latch v) = .next (s.setIdma (s.idma.latchAddr v)) := by
  have hb : (v.getLsbD 15 && s.cfg.member.hasIdmaOvl) = false := by
    rw [Bool.and_eq_false_iff]
    exact h.symm
  exact congrArg (fun d => Host.Outcome.next (s.setIdma d)) (if_neg (by rw [hb]; decide))

theorem idmaStep_latch_ovl {v : Word} (h : s.cfg.member.hasIdmaOvl = true) (hv : v.getLsbD 15 = true) :
    s.idmaStep (.latch v) = .next (s.setIdma (s.idma.latchOvl v)) :=
  congrArg (fun d => Host.Outcome.next (s.setIdma d)) (if_pos (Bool.and_eq_true_iff.mpr ⟨hv, h⟩))

theorem putBit_top (v : Word) : putBit v 15 false = v &&& 0x7FFF := rfl

/-! ### The core held for an IDMA boot -/

/-- The core held for an IDMA boot, not halted for the bus, carries out the access that waits. -/
theorem step_heldIdma {op : IdmaOp} (he : s.env = []) (hc : s.core = .heldIdma) (hb : s.busHalts = false)
    (hn : s.idma.pend = some op) : step s = s.idmaTurn op := by
  have hh : s.heldIdma = s.idmaTurn op := by
    unfold State.heldIdma
    rw [hn]
  have ht : s.turn = s.heldIdma := by
    unfold State.turn
    rw [hc, hb]
    rfl
  unfold step
  rw [he]
  exact ht.trans hh

/-- The second half of a word of Program Memory, written by an access that waited. -/
theorem idmaTurn_secondWrite {lo : Word} (hd : s.idma.toDm = false)
    (hh : s.idma.half = .secondWrite) (hl : s.pmDma s.idPm s.idma.addr = some l) : ∃ t n,
      s.idmaTurn (.write lo) = .next (t.count n) ∧
      t = (((s.pmIntWrite (some l) (s.idma.holding ++ lo.extractLsb' 0 8)).setIdma
        { s.idma with half := .first, addr := s.idma.addr + 1, pend := none }).idmaRelease s.idma.addr) := by
  let r : State := s.setIdma { s.idma with pend := none }
  have hlr : r.pmDma r.idPm r.idma.addr = some l := hl
  have hw : r.idmaStep (.write lo) = _ := idmaStep_write_second (s := r) hd hh lo
  rw [hlr] at hw
  refine ⟨_, _, congrArg (costing _) hw, rfl⟩

/-- A latch, an access to Data Memory, the first half of a write and a read that no write came before leave the core and the
sequencer as they are. -/
theorem idmaStep_keeps_core {op : IdmaOp} {t : State} (ht : s.idmaStep op = .next t)
    (h : (∃ v, op = .latch v) ∨ s.idma.toDm = true ∨ (s.idma.half = .first ∧ ∃ v, op = .write v) ∨
      (s.idma.half ≠ .secondWrite ∧ op = .read)) : t.core = s.core ∧ t.seq = s.seq := by
  have done {u : State} (hu : s.idmaStep op = .next u) (hcore : u.core = s.core) (hseq : u.seq = s.seq) :
      t.core = s.core ∧ t.seq = s.seq := by
    obtain rfl := Host.Outcome.next.inj (ht.symm.trans hu)
    exact ⟨hcore, hseq⟩
  cases hd : s.idma.toDm with
  | true =>
    cases op with
    | latch v => exact done rfl rfl rfl
    | read => exact done (idmaStep_readDm hd) rfl rfl
    | write v => exact done (idmaStep_writeDm hd v) (by rw [dmIntWrite_eq]; rfl) (by rw [dmIntWrite_eq]; rfl)
  | false =>
    rw [hd] at h
    obtain ⟨v, rfl⟩ | h | ⟨hh, v, rfl⟩ | ⟨hh, rfl⟩ := h
    · exact done rfl rfl rfl
    · exact absurd h (by decide)
    · exact done (idmaStep_write_first hd hh v) rfl rfl
    · cases hhalf : s.idma.half with
      | first => exact done (idmaStep_read_first hd hhalf) rfl rfl
      | secondRead => exact done (idmaStep_read_second hd hhalf) rfl rfl
      | secondWrite => exact absurd hhalf hh

end

/-- Settles O60, access by access: each is one update of the port and at most one word of memory. -/
theorem idmaWords : Obligations.IdmaWords := by
  intro s hi lo hwf
  refine ⟨fun l hd hh hc hl => ?pm, fun l hd hl => ?dm, fun hc hp hn => ?waits, fun h => ⟨_, idmaStep_latch_addr h, rfl⟩,
    fun h hv => ⟨_, idmaStep_latch_ovl h hv, rfl, putBit_top hi⟩, fun he hc hb hd hh hn l hl => ?boot,
    fun hc op t ht h => hc ▸ idmaStep_keeps_core ht (h.imp (⟨hi, ·⟩) (Or.imp_right (Or.imp_left (And.imp_right (⟨hi, ·⟩)))))⟩
  case pm =>
    obtain ⟨hfirst, hsecond⟩ := idma_writes_pm hd hh hc hl hi lo
    let u : State := (s.pmIntWrite (some l) (hi ++ lo.extractLsb' 0 8)).setIdma
      { s.idma with holding := hi, half := .first, addr := s.idma.addr + 1 }
    obtain ⟨hword, hsame⟩ := pmIntWrite_stored (t := u) hwf rfl
    obtain ⟨r, q, hread, hout, hread', hout', haddr⟩ :=
      idma_reads_pm (s := u.setIdma { u.idma with addr := s.idma.addr }) hd rfl hl
    have hmem : (u.setIdma { u.idma with addr := s.idma.addr }).mem = u.mem := rfl
    rw [hmem, hword] at hout hout'
    exact ⟨_, u, hfirst, rfl, hsecond, hword, hsame, rfl, rfl, r, q, hread, hout.trans BitVec.extractLsb'_append_eq_left,
      hread', hout'.trans (congrArg _ BitVec.extractLsb'_append_eq_right), haddr⟩
  case dm =>
    have hwrite := idmaStep_writeDm hd hi
    rw [hl] at hwrite
    let t : State := (s.dmIntWrite (some l) hi).setIdma { s.idma with addr := s.idma.addr + 1 }
    obtain ⟨hword, hsame⟩ := dmIntWrite_stored (t := t) hwf rfl
    have hread := idmaStep_readDm (s := t.setIdma { t.idma with addr := s.idma.addr }) hd
    refine ⟨t, hwrite, hword, hsame, rfl, _, hread, ?_, rfl, rfl⟩
    have hlt : State.dmDma (t.setIdma { t.idma with addr := s.idma.addr })
        (t.setIdma { t.idma with addr := s.idma.addr }).idDm s.idma.addr = some l := hl
    exact (congrArg (fun k => State.dmIntRead t k _) hlt).trans hword
  case waits =>
    intro waits
    have hev := idmaEvent_running hc hp hn
    have hwait {op : IdmaOp} (h : s.idma.steals op = true) : waits op := (hev op).trans (if_pos h)
    have hdone {op : IdmaOp} (h : ¬s.idma.steals op = true) : s.idmaEvent op = s.idmaStep op := (hev op).trans (if_neg h)
    have hread (h : s.idma.toDm = true ∨ s.idma.half ≠ .secondRead) : waits .read := hwait ((steals_read_iff _).mpr h)
    have hwrite (h : s.idma.toDm = true ∨ s.idma.half ≠ .first) : waits (.write hi) := hwait ((steals_write_iff _ hi).mpr h)
    refine ⟨hdone (by simp [Idma.steals]), fun hd => ⟨hread (.inl hd), hwrite (.inl hd)⟩, fun hd => ⟨fun hh => ⟨?_, ?_⟩,
      fun hh => ?_, fun hh => ?_⟩⟩
    · exact hdone (by simp [steals_write_iff, hd, hh])
    · exact hread (.inr (by simp [hh]))
    · exact hdone (by simp [steals_read_iff, hd, hh])
    · exact hwrite (.inr (by simp [hh]))
  case boot =>
    obtain ⟨t, n, hturn, ht⟩ := idmaTurn_secondWrite (lo := lo) hd hh hl
    refine ⟨t.count n, (step_heldIdma he hc hb hn).trans hturn, ?_⟩
    rw [idmaRelease_held (by exact hc)] at ht
    have hm : t.mem = (s.pmIntWrite (some l) (s.idma.holding ++ lo.extractLsb' 0 8)).mem := by
      rw [ht]
      split <;> rfl
    obtain ⟨hword, hsame⟩ := pmIntWrite_stored (t := t) hwf hm
    refine ⟨hword, hsame, ?_⟩
    by_cases ha : s.idma.addr = 0
    · rw [if_pos ha] at ht ⊢
      rw [ht]
      exact ⟨rfl, rfl, rfl, rfl, rfl⟩
    · rw [if_neg ha] at ht ⊢
      rw [ht]
      exact ⟨rfl, rfl, rfl, hc, rfl⟩

end Sys2Proof.Machine
end

section
/-!
PROOFS. The autobuffer transfers: when an update wraps, and what the two directions do to the port, the I register, the requests
and memory (62_serial_ports.md R597 to R599; 92_eei_decisions.md D39).
-/

namespace Sys2Proof.Machine

/-! ### The wrap -/

theorem dagWraps_zero (i m : Addr) : dagWraps i m 0 = false := rfl

/-- An update wraps where the exact sum of I and M leaves the buffer. -/
theorem dagWraps_iff {i m l : Addr} {n : Nat} (h1 : l.toNat ≤ 2 ^ n) (h2 : 2 ^ n < 2 * l.toNat) :
    dagWraps i m l = true ↔ (i.toNat : Int) + m.toInt < i.toNat / 2 ^ n * 2 ^ n ∨
      (i.toNat / 2 ^ n * 2 ^ n : Int) + l.toNat ≤ i.toNat + m.toInt := by
  have hl : (l != 0) = true := by
    rw [bne_iff_ne]
    rintro rfl
    simp at h2
  have hb : (bufBase i l : Int) = i.toNat / 2 ^ n * 2 ^ n := by
    rw [bufBase, bufBits_eq l n h1 h2]
    push_cast
    rfl
  simp only [dagWraps, hl, hb, Bool.true_and, Bool.or_eq_true, decide_eq_true_eq]
  exact or_comm

/-! ### The registers a transfer uses -/

theorem txM_eq (p : Sport) :
    p.txM = Fin.ofNat 8 (p.auto.toNat / 512 % 8 / 4 * 4 + p.auto.toNat / 128 % 4) := by
  have h : p.txI.val = p.auto.toNat / 512 % 8 := Nat.mod_mod _ _
  unfold Sport.txM
  rw [h]
  rfl

theorem rxM_eq (p : Sport) :
    p.rxM = Fin.ofNat 8 (p.auto.toNat / 16 % 8 / 4 * 4 + p.auto.toNat / 4 % 4) := by
  have h : p.rxI.val = p.auto.toNat / 16 % 8 := Nat.mod_mod _ _
  unfold Sport.rxM
  rw [h]
  rfl

/-! ### The port and the I register -/

section
variable (s : State) (n : Fin 2)

/-- A port replaced and an I register modified change no more than the ports and that register. -/
theorem setSport_dagStep_eq (p : Sport) (i m : Fin 8) : (s.setSport n p).dagStep i m = { s with
    sp0 := (s.setSport n p).sp0
    sp1 := (s.setSport n p).sp1
    dag := { s.dag with i := s.dag.i.set i (s.dagNext i m) } } := by
  have h : (s.setSport n p).dagNext i m = s.dagNext i m := by
    unfold State.dagNext
    rw [setSport_dag, setSport_freeCtr]
  unfold State.dagStep
  rw [h, setSport_eq]
  rfl

/-! ### Transmit -/

/-- The port after a word is loaded into TX. -/
def State.autoTxPort : Sport :=
  let p := s.sport n
  { p with txReq := false, tx := s.readDm (s.dagAddr p.txI), txFull := true, compDue := p.companding }

theorem autoTx_eq : s.autoTx n = ((s.setSport n (s.autoTxPort n)).dagStep (s.sport n).txI (s.sport n).txM).requestIf
    (s.wraps (s.sport n).txI (s.sport n).txM) (txLevel n) := rfl

theorem autoTx_sport_self : (s.autoTx n).sport n = s.autoTxPort n := by
  rw [autoTx_eq, requestIf_sport]
  exact setSport_sport_self s n _

theorem autoTx_sport_other {m : Fin 2} (h : m ≠ n) : (s.autoTx n).sport m = s.sport m := by
  rw [autoTx_eq, requestIf_sport]
  exact setSport_sport_other s n _ h

/-- A transmit transfer leaves the banks, the sequencer, the status registers and memory, and modifies its I register. -/
theorem autoTx_frame : (s.autoTx n).pri = s.pri ∧ (s.autoTx n).sec = s.sec ∧ (s.autoTx n).seq = s.seq ∧
    (s.autoTx n).st = s.st ∧ (s.autoTx n).mem = s.mem ∧
    (s.autoTx n).dag = { s.dag with i := s.dag.i.set (s.sport n).txI (s.dagNext (s.sport n).txI (s.sport n).txM) } := by
  rw [autoTx_eq, requestIf_eq, setSport_dagStep_eq]
  exact ⟨rfl, rfl, rfl, rfl, rfl, rfl⟩

theorem autoTx_latch (k : Nat) : (s.autoTx n).irq.latch.getLsbD k =
    (s.irq.latch.getLsbD k || (decide (k = txLevel n) && s.wraps (s.sport n).txI (s.sport n).txM)) := by
  rw [autoTx_eq, requestIf_latch _ _ (txLevel_lt n), setSport_dagStep_eq, Bool.and_comm]

/-! ### Receive -/

/-- The state a receive transfer stores from: the request withdrawn and the I register modified. -/
def State.autoRxBase : State :=
  (s.setSport n { s.sport n with rxReq := false }).dagStep (s.sport n).rxI (s.sport n).rxM

/-- A receive transfer stores RX at the address of the I register. -/
def State.autoRxStored : State := (s.autoRxBase n).writeDm (s.dagAddr (s.sport n).rxI) (s.readRx n)

theorem autoRx_eq : s.autoRx n =
    ((s.autoRxStored n).requestIf (s.wraps (s.sport n).rxI (s.sport n).rxM) (rxLevel n)).dueNow := rfl

theorem autoRx_mem : (s.autoRx n).mem = (s.autoRxStored n).mem := by
  rw [autoRx_eq, requestIf_eq]
  rfl

theorem autoRxBase_eq : s.autoRxBase n = { s with
    sp0 := (s.autoRxBase n).sp0
    sp1 := (s.autoRxBase n).sp1
    dag := { s.dag with i := s.dag.i.set (s.sport n).rxI (s.dagNext (s.sport n).rxI (s.sport n).rxM) } } := by
  unfold State.autoRxBase
  rw [setSport_dagStep_eq]

/-- A receive transfer leaves the banks, the sequencer and the status registers, and modifies its I register. -/
theorem autoRx_frame : (s.autoRx n).pri = s.pri ∧ (s.autoRx n).sec = s.sec ∧ (s.autoRx n).seq = s.seq ∧
    (s.autoRx n).st = s.st ∧
    (s.autoRx n).dag = { s.dag with i := s.dag.i.set (s.sport n).rxI (s.dagNext (s.sport n).rxI (s.sport n).rxM) } := by
  have hw := writeDm_frame (s.autoRxBase n) (s.dagAddr (s.sport n).rxI) (s.readRx n)
  rw [autoRx_eq, requestIf_eq]
  exact ⟨hw.pri.trans (by rw [autoRxBase_eq]), hw.sec.trans (by rw [autoRxBase_eq]), hw.seq.trans (by rw [autoRxBase_eq]),
    hw.st.trans (by rw [autoRxBase_eq]), hw.dag.trans (by rw [autoRxBase_eq])⟩

/-- A store to a control register reaches no memory. -/
theorem autoRx_control (ha : 0x3FE0 ≤ (s.dagAddr (s.sport n).rxI).toNat) : SameMem s (s.autoRx n) := by
  have h : s.autoRxStored n = (s.autoRxBase n).writeMmr _ _ := if_pos ha
  intro k
  rw [autoRx_mem, h, (writeMmr_frame _ _ _).mem, autoRxBase_eq]

variable {s n} (ha : (s.dagAddr (s.sport n).rxI).toNat < 0x3FE0)
include ha

/-- Below the control registers a store changes memory alone. -/
theorem autoRxStored_below : s.autoRxStored n = { s.autoRxBase n with mem := (s.autoRxStored n).mem } := by
  have h : s.autoRxStored n = (s.autoRxBase n).writeRam (s.dagAddr (s.sport n).rxI) (s.readRx n) :=
    if_neg (Nat.not_le_of_lt ha)
  rw [h]
  exact writeRam_eq _ _ _

theorem autoRx_sport_below (m : Fin 2) : (s.autoRx n).sport m = (s.setSport n { s.sport n with rxReq := false }).sport m := by
  have h : (s.autoRx n).sport m = (s.autoRxStored n).sport m := requestIf_sport _ _ _ m
  rw [h, autoRxStored_below ha]
  rfl

theorem autoRx_latch_below (k : Nat) : (s.autoRx n).irq.latch.getLsbD k =
    (s.irq.latch.getLsbD k || (decide (k = rxLevel n) && s.wraps (s.sport n).rxI (s.sport n).rxM)) := by
  have h : (s.autoRxStored n).irq = s.irq := by
    rw [autoRxStored_below ha, autoRxBase_eq]
  have hl : (s.autoRx n).irq.latch.getLsbD k = _ :=
    requestIf_latch (s.autoRxStored n) (s.wraps (s.sport n).rxI (s.sport n).rxM) (rxLevel_lt n) k
  rw [hl, h, Bool.and_comm]

theorem autoRx_stored (hwf : Memory.wf s.mem = true) :
    match s.dmLoc s.st.dmovlay (s.dagAddr (s.sport n).rxI) with
    | some l => memGet16 (s.autoRx n).mem l.base = s.readRx n ∧ SameMemBut s (s.autoRx n) l.base 2
    | none => SameMem s (s.autoRx n) := by
  have hm : (s.autoRx n).mem = ((s.autoRxBase n).writeRam (s.dagAddr (s.sport n).rxI) (s.readRx n)).mem :=
    (autoRx_mem s n).trans (congrArg State.mem (if_neg (Nat.not_le_of_lt ha)))
  have hstored (h : Memory.wf (s.autoRxBase n).mem = true) := writeRam_stored h _ _ hm
  rw [autoRxBase_eq] at hstored
  exact hstored hwf

end

/-! ### The value stored -/

theorem readRx_of_settled {s : State} {n : Fin 2} (h : (s.sport n).expDue = false) : s.readRx n = (s.sport n).rx :=
  if_neg (by simp [h])

theorem readRx_either (s : State) (n : Fin 2) : s.readRx n = (s.sport n).rx ∨ s.readRx n = (s.sport n).expanded := by
  unfold State.readRx
  dsimp only
  split
  · split
    · exact .inr rfl
    · exact .inl rfl
  · exact .inl rfl

/-- Settles O57: transmit by its one update of the state, receive by the Data Memory write it makes. -/
theorem autobufferTransfer : Obligations.AutobufferTransfer := by
  refine ⟨fun s => rfl, fun i m l => ⟨fun hl => hl ▸ dagWraps_zero i m, fun n h1 h2 => dagWraps_iff h1 h2⟩, ?_⟩
  intro n s hwf p ti tm ri rm t u a
  have htm : (s.sport n).txM = tm := txM_eq p
  have hrm : (s.sport n).rxM = rm := rxM_eq p
  have htl := autoTx_latch s n
  have hrl (ha : a.toNat < 0x3FE0) := autoRx_latch_below (n := n) ha
  obtain ⟨htpri, htsec, htseq, htst, htmem, htdag⟩ := autoTx_frame s n
  obtain ⟨hrpri, hrsec, hrseq, hrst, hrdag⟩ := autoRx_frame s n
  simp only [htm] at htl htdag
  simp only [hrm] at hrl hrdag
  refine ⟨autoTx_sport_self s n, fun m hm => autoTx_sport_other s n hm, htmem, htdag, htl,
    fun ha => ⟨?_, fun m hm => ?_, hrl ha, autoRx_stored ha hwf⟩, readRx_of_settled, readRx_either s n, autoRx_control s n,
    hrdag, hrpri, hrsec, hrseq, hrst, htpri, htsec, htseq, htst⟩
  · exact (autoRx_sport_below ha n).trans (setSport_sport_self s n _)
  · exact (autoRx_sport_below ha m).trans (setSport_sport_other s n _ hm)

end Sys2Proof.Machine
end

section
/-!
PROOFS. Companding: a value is due in the cycle after the one that wrote it, SPORT0 comes before SPORT1, and each law takes a code
to a value that gives the code back (62_serial_ports.md R591 to R593).
-/

namespace Sys2Proof.Machine

/-! ### One port's steps -/

section
variable (p : Sport) (free : Word)

/-- Every bit of a compressed value: the code, its sign up to the word length, and open bits above (62_serial_ports.md R591). -/
theorem compressed_bit {k : Nat} (hk : k < 16) : (p.compressed free).getLsbD k =
    if max p.len 8 ≤ k then free.getLsbD k
    else (if p.aLaw then compressA p.tx else compressMu p.tx).getLsbD (min k 7) := by
  obtain ⟨_, hlen⟩ := len_bounds p
  unfold Sport.compressed
  rw [getLsbD_openBits, upperOnes_bit (by omega) hk, BitVec.getLsbD_signExtend, BitVec.msb_eq_getLsbD_last,
    decide_eq_true hk, Bool.true_and]
  simp only [decide_eq_true_eq]
  congr 1
  split
  · rw [Nat.min_eq_left (by omega)]
  · rw [Nat.min_eq_right (by omega)]

/-- With the circuit free a value due is converted, once. -/
theorem compandStep_free : p.compandStep true true free = { p with
    tx := if p.compDue then p.compressed free else p.tx
    rx := if p.expDue then p.expanded else p.rx
    compNew := false, compDue := p.compNew, expNew := false, expDue := p.expNew, expBusy := false } := by
  unfold Sport.compandStep
  cases p.compDue <;> cases p.expDue <;> rfl

end

/-! ### The laws -/

/-- The position of the highest bit. -/
theorem log2From_eq {m e k : Nat} (hk : e < k) (hlo : 2 ^ e ≤ m) (hhi : m < 2 ^ (e + 1)) : log2From m k = e := by
  induction k with
  | zero => omega
  | succ k ih =>
    unfold log2From
    rcases Nat.lt_or_ge e k with h | h
    · have hm : ¬2 ^ k ≤ m := fun h' => absurd (Nat.lt_of_le_of_lt h' hhi)
        (Nat.not_lt_of_le (Nat.pow_le_pow_right (by decide) h))
      rw [if_neg hm]
      exact ih h
    · obtain rfl : e = k := by omega
      rw [if_pos hlo]

/-- A step `q` of the chord `e`: the highest bit gives the chord, and the bits below it the step. -/
theorem chord_step {e q : Nat} (he : e < 8) (hq : q < 16) :
    log2From ((q * 2 + 33) * 2 ^ e) 16 = 5 + e ∧ (q * 2 + 33) * 2 ^ e / 2 ^ (e + 1) % 16 = q := by
  have hpos : 0 < 2 ^ e := Nat.two_pow_pos e
  refine ⟨log2From_eq (by omega) ?_ ?_, ?_⟩
  · rw [Nat.pow_add]
    exact Nat.mul_le_mul_right _ (by omega)
  · rw [show 5 + e + 1 = 6 + e by omega, Nat.pow_add]
    exact Nat.mul_lt_mul_of_pos_right (by omega) hpos
  · rw [Nat.pow_succ, Nat.mul_comm (2 ^ e) 2, Nat.mul_div_mul_right _ _ hpos]
    omega

/-- A magnitude with a sign, as a word. -/
def signedWord (neg : Bool) (m : Nat) : Word := BitVec.ofInt 16 (if neg then -(m : Int) else m)

theorem signedWord_toInt {m : Nat} (hm : m < 32768) (neg : Bool) :
    (signedWord neg m).toInt = if neg then -(m : Int) else m := by
  refine BitVec.toInt_ofInt_eq_self (by decide) ?_ ?_
  · split <;> omega
  · split <;> omega

theorem signedWord_natAbs {m : Nat} (hm : m < 32768) (neg : Bool) : (signedWord neg m).toInt.natAbs = m := by
  rw [signedWord_toInt hm]
  split <;> omega

/-- The sign of a word is that of its magnitude, which a negative zero has not. -/
theorem signedWord_sign {m : Nat} (hm : m < 32768) (neg : Bool) (h : neg = true → m ≠ 0) :
    (signedWord neg m).getLsbD 15 = neg := by
  rw [← BitVec.msb_eq_getLsbD_last, BitVec.msb_eq_toInt, signedWord_toInt hm]
  cases neg with
  | false => simp
  | true => have := h rfl; simp; omega

/-- A code's sign, chord and step. -/
theorem code_fields (d : BitVec 8) :
    d.toNat = (if d.getLsbD 7 then 1 else 0) * 128 + field d 4 3 * 16 + field d 0 4 := by
  have hd := d.isLt
  have hs : d.getLsbD 7 = decide (128 ≤ d.toNat) := by
    rw [BitVec.getLsbD, Nat.testBit_eq_decide_div_mod_eq, decide_eq_decide]
    omega
  rw [hs]
  unfold field
  simp only [decide_eq_true_eq]
  split <;> omega

/-- The magnitudes of a chord. -/
theorem chord_bounds {e q : Nat} (hq : q < 16) :
    33 * 2 ^ e + q * 2 ≤ (q * 2 + 33) * 2 ^ e ∧ (q * 2 + 33) * 2 ^ e ≤ 63 * 2 ^ e := by
  have hpos : 0 < 2 ^ e := Nat.two_pow_pos e
  have hstep : q * 2 ≤ q * 2 * 2 ^ e := Nat.le_mul_of_pos_right _ hpos
  exact ⟨by rw [Nat.add_mul]; omega, Nat.mul_le_mul_right _ (by omega)⟩

theorem field_lt {w : Nat} (v : BitVec w) (lo n : Nat) : field v lo n < 2 ^ n := Nat.mod_lt _ (Nat.two_pow_pos n)

/-- The value of a mu-law code, as a sign and a magnitude. -/
theorem expandMu_eq (c : BitVec 8) : expandMu c =
    signedWord ((~~~c).getLsbD 7) ((field (~~~c) 0 4 * 2 + 33) * 2 ^ field (~~~c) 4 3 - 33) := by
  obtain ⟨hlo, -⟩ := chord_bounds (e := field (~~~c) 4 3) (field_lt (~~~c) 0 4)
  have hpos : 0 < 2 ^ field (~~~c) 4 3 := Nat.two_pow_pos _
  unfold expandMu signedWord
  dsimp only
  rw [Int.natCast_sub (by omega)]
  rfl

/-- Mu-law gives a code back, but for negative zero: its magnitude is that of the chord, which the highest bit and the bits below
it say. -/
theorem compressMu_expandMu {c : BitVec 8} (hc : c ≠ 0x7F) : compressMu (expandMu c) = c := by
  let d := ~~~c
  let e := field d 4 3
  let q := field d 0 4
  let m := (q * 2 + 33) * 2 ^ e
  have he : e < 8 := field_lt d 4 3
  have hq : q < 16 := field_lt d 0 4
  have hd : d.toNat = (if d.getLsbD 7 then 1 else 0) * 128 + e * 16 + q := code_fields d
  obtain ⟨hlo, hhi⟩ := chord_bounds (e := e) hq
  obtain ⟨hlog, hstep⟩ := chord_step he hq
  have hpos : 0 < 2 ^ e := Nat.two_pow_pos e
  have hle : 2 ^ e ≤ 2 ^ 7 := Nat.pow_le_pow_right (by decide) (by omega)
  have hx : expandMu c = signedWord (d.getLsbD 7) (m - 33) := expandMu_eq c
  have hsign : (expandMu c).getLsbD 15 = d.getLsbD 7 := by
    refine hx ▸ signedWord_sign (by omega) _ fun hneg hzero => hc ?_
    have he0 : e = 0 := by
      by_contra h
      have : 2 ^ 1 ≤ 2 ^ e := Nat.pow_le_pow_right (by decide) (by omega)
      omega
    have hdn : d.toNat = (0x80 : BitVec 8).toNat := by
      rw [hd, hneg, he0]
      simp
      omega
    rw [← BitVec.not_not (b := c)]
    exact congrArg _ (BitVec.eq_of_toNat_eq hdn)
  have habs : min (expandMu c).toInt.natAbs 8158 + 33 = m := by
    rw [hx, signedWord_natAbs (by omega)]
    omega
  have hcode : BitVec.ofNat 8 ((if d.getLsbD 7 then 1 else 0) * 128 + e * 16 + q) = d := by
    rw [← hd, BitVec.ofNat_toNat, BitVec.setWidth_eq]
  unfold compressMu
  dsimp only
  rw [hsign, habs, hlog, Nat.add_sub_cancel_left, hstep, hcode]
  exact BitVec.not_not

/-- The magnitude of an A-law code: the lowest two chords have the same steps. -/
def aLawMagnitude (e q : Nat) : Nat := if e = 0 then q * 2 + 1 else (q * 2 + 33) * 2 ^ (e - 1)

theorem aLawMagnitude_zero (q : Nat) : aLawMagnitude 0 q = q * 2 + 1 := rfl

theorem aLawMagnitude_succ (e q : Nat) : aLawMagnitude (e + 1) q = (q * 2 + 33) * 2 ^ e := rfl

/-- The value of an A-law code, as a sign and a magnitude. -/
theorem expandA_eq (c : BitVec 8) : expandA c =
    signedWord (!(c ^^^ 0x55).getLsbD 7) (aLawMagnitude (field (c ^^^ 0x55) 4 3) (field (c ^^^ 0x55) 0 4)) := by
  unfold expandA signedWord
  dsimp only
  cases (c ^^^ 0x55).getLsbD 7 <;> rfl

/-- The chord and the step of an A-law magnitude. -/
theorem aLaw_chord_step {e q : Nat} (he : e < 8) (hq : q < 16) :
    let m := aLawMagnitude e q
    1 ≤ m ∧ m ≤ 4095 ∧ (if m < 32 then 0 else log2From m 16 - 4) = e ∧ (if m < 32 then m / 2 else m / 2 ^ e % 16) = q := by
  cases e with
  | zero =>
    rw [aLawMagnitude_zero]
    refine ⟨by omega, by omega, if_pos (by omega), ?_⟩
    rw [if_pos (by omega)]
    omega
  | succ e =>
    rw [aLawMagnitude_succ]
    obtain ⟨hlo, hhi⟩ := chord_bounds (e := e) hq
    obtain ⟨hlog, hstep⟩ := chord_step (e := e) (by omega) hq
    have hpos : 0 < 2 ^ e := Nat.two_pow_pos e
    have hle : 2 ^ e ≤ 2 ^ 6 := Nat.pow_le_pow_right (by decide) (by omega)
    refine ⟨by omega, by omega, ?_, ?_⟩
    · rw [if_neg (by omega), hlog]
      omega
    · rw [if_neg (by omega), hstep]

/-- A-law gives every code back: the highest bit of the magnitude says the chord, and the bits below it the step. -/
theorem compressA_expandA (c : BitVec 8) : compressA (expandA c) = c := by
  let d := c ^^^ 0x55
  let e := field d 4 3
  let q := field d 0 4
  let m := aLawMagnitude e q
  have hd : d.toNat = (if d.getLsbD 7 then 1 else 0) * 128 + e * 16 + q := code_fields d
  obtain ⟨hlo, hhi, hchord, hstep⟩ := aLaw_chord_step (e := e) (q := q) (field_lt d 4 3) (field_lt d 0 4)
  have hx : expandA c = signedWord (!d.getLsbD 7) m := expandA_eq c
  have hsign : (expandA c).getLsbD 15 = !d.getLsbD 7 :=
    hx ▸ signedWord_sign (by omega) _ fun _ => by omega
  have habs : min (expandA c).toInt.natAbs 4095 = m := by
    rw [hx, signedWord_natAbs (by omega)]
    omega
  have hs : (if (!d.getLsbD 7) = true then 0 else 1) = if d.getLsbD 7 = true then 1 else 0 := by
    cases d.getLsbD 7 <;> rfl
  unfold compressA
  dsimp only
  rw [hsign, habs, hchord, hstep, hs, ← hd, BitVec.ofNat_toNat, BitVec.setWidth_eq, BitVec.xor_assoc, BitVec.xor_self]
  exact BitVec.xor_zero

/-! ### Both ports -/

section
variable (s : State)

/-- While SPORT0 compresses, SPORT1 keeps its TX, and a compression due is so still. -/
theorem compandStep_tx_waits (h : s.sp0.compDue = true) : s.compandStep.sp1.tx = s.sp1.tx ∧
    s.compandStep.sp1.compDue = (s.sp1.compDue || s.sp1.compNew) := by
  simp [State.compandStep, Sport.compandStep, h]

/-- While SPORT0 expands, a received word too, SPORT1 keeps its RX, and an expansion due is so still. -/
theorem compandStep_rx_waits (h : s.sp0.expDue = true ∨ s.sp0.expBusy = true) : s.compandStep.sp1.rx = s.sp1.rx ∧
    s.compandStep.sp1.expDue = (s.sp1.expDue || s.sp1.expNew) := by
  have hb : (s.sp0.expDue || s.sp0.expBusy) = true := Bool.or_eq_true_iff.mpr h
  simp [State.compandStep, Sport.compandStep, hb]

/-- With SPORT0 off the circuit SPORT1 does its own step. -/
theorem compandStep_sp1_free (h1 : s.sp0.compDue = false) (h2 : s.sp0.expDue = false) (h3 : s.sp0.expBusy = false) :
    s.compandStep.sp1 = s.sp1.compandStep true true (s.freeTx 1) := by
  simp only [State.compandStep, h1, h2, h3]
  rfl

end

/-- Settles O56: two cycles of a port by `compandStep_free`, the order of the ports by what SPORT1 may do, and the laws by sign,
chord and step. -/
theorem companding : Obligations.Companding := by
  refine ⟨fun s v => ⟨rfl, rfl, rfl, rfl, rfl, rfl⟩, fun p v f g => ?steps,
    fun s => ⟨compandStep_tx_waits s, compandStep_rx_waits s, rfl, rfl, compandStep_sp1_free s⟩, compressA_expandA,
    fun c => compressMu_expandMu⟩
  case steps =>
    intro a b c d code
    have hb : b = _ := compandStep_free a g
    have hd : d = _ := compandStep_free c g
    have hbtx : b.tx = if p.companding then a.compressed g else v := congrArg Sport.tx hb
    have hdrx : d.rx = if p.companding then c.expanded else v := congrArg Sport.rx hd
    refine ⟨rfl, rfl, congrArg Sport.compDue hb, congrArg Sport.compNew hb, congrArg Sport.expDue hd, congrArg Sport.expNew hd,
      fun h => ?plain, fun h => ?companded⟩
    case plain =>
      rw [hbtx, hdrx, h]
      exact ⟨rfl, rfl⟩
    case companded =>
      rw [h] at hbtx hdrx
      have hbit {k : Nat} (hk : k < 16) := compressed_bit a g hk
      have hlen := len_bounds p
      have hmax : max a.len 8 = max p.len 8 := rfl
      refine ⟨fun k hk => ?_, fun k hk hkl => ?_, hdrx⟩
      · rw [hbtx]
        refine (hbit (by omega)).trans ?_
        rw [hmax, if_neg (by omega), Nat.min_eq_left (by omega)]
        rfl
      · rw [hbtx]
        refine (hbit (by omega)).trans ?_
        rw [hmax, if_neg (by omega), Nat.min_eq_right (by omega)]
        rfl

end Sys2Proof.Machine
end

section
/-!
PROOFS. One BDMA word: the places of its bytes, the word moved in each direction, the registers after it and what the last word
does; and a bus request (61_peripherals.md R612 to R622; 20_memory.md R118, R137; 70_reset_and_hazards.md R684, R731).
-/

namespace Sys2Proof.Machine

/-! ### A bus request -/

section
variable {s : State}

theorem step_busRequest {b : Bool} {rest : List Event} (he : s.env = .busRequest b :: rest) :
    step s = .next ((State.busRequestEvent { s with env := rest } b).count 0) := by
  unfold step
  rw [he]
  rfl

/-- No byte access of a transfer is in progress. -/
theorem byteLeft_zero_iff : s.byteLeft 0 = 0 ↔ ¬(s.bdma.active = true ∧ s.bdma.wait % (s.bmwait + 1) ≠ 0) := by
  unfold State.byteLeft
  cases s.bdma.active <;> simp

theorem busRequestEvent_bg (b : Bool) : (s.busRequestEvent b).bg = true ↔
    b = true ∧ (s.bg = true ∨ (s.core ≠ .powerDown ∧ s.byteLeft 0 = 0)) := by
  simp [State.busRequestEvent]

end

/-! ### Bytes stored one after another -/

/-- The bytes `byte 0` to `byte (n - 1)` written in that order, each at its place. -/
def storeBytes (m : Memory) (place : Nat → Nat) (byte : Nat → Byte) : Nat → Memory
  | 0 => m
  | n + 1 => memSet (storeBytes m place byte n) (place n) (byte n)

section
variable {m : Memory} {place : Nat → Nat} {byte : Nat → Byte} {n : Nat}

theorem wf_storeBytes (h : Memory.wf m = true) : Memory.wf (storeBytes m place byte n) = true := by
  induction n with
  | zero => exact h
  | succ n ih => exact wf_memSet ih _ _

theorem memGet_storeBytes_other {a : Nat} (h : ∀ j, j < n → a ≠ place j) :
    memGet (storeBytes m place byte n) a = memGet m a := by
  induction n with
  | zero => rfl
  | succ n ih =>
    rw [storeBytes, memGet_memSet_other _ _ (h n (Nat.lt_succ_self n)).symm]
    exact ih fun j hj => h j (Nat.lt_succ_of_lt hj)

/-- A byte is read back where no later one has its place. -/
theorem memGet_storeBytes_self (hm : Memory.wf m = true) {j : Nat} (hj : j < n)
    (h : ∀ k, j < k → k < n → place k ≠ place j) : memGet (storeBytes m place byte n) (place j) = byte j := by
  induction n with
  | zero => exact absurd hj (Nat.not_lt_zero j)
  | succ n ih =>
    rw [storeBytes]
    rcases Nat.lt_succ_iff_lt_or_eq.mp hj with hlt | rfl
    · rw [memGet_memSet_other _ _ (h n hlt (Nat.lt_succ_self n))]
      exact ih hlt fun k hk hkn => h k hk (Nat.lt_succ_of_lt hkn)
    · exact memGet_memSet_self (wf_storeBytes hm) _ _

end

/-! ### The places of a word's bytes -/

section
variable (s : State)

/-- The page and A0 of a byte address (20_memory.md R118). -/
theorem hostMask_toNat (a : BitVec 22) : (a &&& 0x3FC001).toNat = a.toNat / 16384 * 16384 + a.toNat % 2 := by
  have hmask : (0x3FC001 : BitVec 22).toNat = 2 ^ 14 * (2 ^ 8 - 1) + (2 ^ 1 - 1) := rfl
  have ha := a.isLt
  have hq : a.toNat / 2 ^ 14 < 2 ^ 8 := by omega
  have hsplit : a.toNat / 16384 * 16384 + a.toNat % 2 = 2 ^ 14 * (a.toNat / 2 ^ 14) + a.toNat % 2 ^ 1 := by omega
  rw [hsplit, BitVec.toNat_and, hmask]
  apply Nat.eq_of_testBit_eq
  intro j
  rw [Nat.testBit_and, Nat.testBit_two_pow_mul_add _ (by decide), Nat.testBit_two_pow_mul_add _ (by omega)]
  split
  · rw [Nat.testBit_two_pow_sub_one, Nat.testBit_mod_two_pow, Bool.and_comm]
  · rw [Nat.testBit_two_pow_sub_one, Nat.testBit_div_two_pow]
    rw [Nat.sub_add_cancel (by omega)]
    by_cases hj : j < 22
    · rw [decide_eq_true (by omega), Bool.and_true]
    · have hle : 2 ^ 22 ≤ 2 ^ j := Nat.pow_le_pow_right (by decide) (Nat.le_of_not_lt hj)
      rw [decide_eq_false (by omega), Bool.and_false, Nat.testBit_lt_two_pow (Nat.lt_of_lt_of_le ha hle)]

/-- The place of byte `j` of the next word. -/
def State.bdmaPlace (j : Nat) : Nat :=
  let x := s.bdma.bmpage * 16384 + s.bdma.bead.toNat + j
  0x400000 + if s.hostMode then x / 16384 * 16384 + x % 2 else x

/-- Within Byte Memory the address of byte `j` is its place. -/
theorem bmPlace_byteAddr {j : Nat} (h : s.bdma.bmpage * 16384 + s.bdma.bead.toNat + j < 4194304) :
    bmPlace (s.bmAddr (s.bdma.byteAddr + BitVec.ofNat 22 j)) = s.bdmaPlace j := by
  have ha : (s.bdma.byteAddr + BitVec.ofNat 22 j).toNat = s.bdma.bmpage * 16384 + s.bdma.bead.toNat + j := by
    unfold Bdma.byteAddr
    rw [BitVec.toNat_add, BitVec.toNat_ofNat, BitVec.toNat_ofNat]
    omega
  unfold bmPlace State.bmAddr State.bdmaPlace
  split
  · rw [hostMask_toNat, ha]
  · rw [ha]

theorem bdmaPlace_next (j : Nat) : s.bdmaPlace (j + 1) ≠ s.bdmaPlace j := by
  unfold State.bdmaPlace
  dsimp only
  split <;> omega

theorem bdmaPlace_injective (h : s.hostMode = false) {j k : Nat} (hjk : j < k) : s.bdmaPlace k ≠ s.bdmaPlace j := by
  unfold State.bdmaPlace
  rw [h]
  simp
  omega

/-! ### The word moved -/

theorem btype_lt (b : Bdma) : b.btype < 4 := Nat.mod_lt _ (by decide)

/-- A BDMA word moved changes memory alone. -/
theorem bdmaMove_eq : s.bdmaMove = { s with mem := s.bdmaMove.mem } := by
  unfold State.bdmaMove
  dsimp only
  split
  · split <;> rfl
  · split
    · exact pmIntWrite_eq s _ _
    all_goals exact dmIntWrite_eq s _ _

/-- The byte `j` that the words `w` and `v` give Byte Memory in a mode of BTYPE: the bytes of a word from the most significant on,
or one half of it. -/
def storedByte (btype : Nat) (w : PmWord) (v : Word) (j : Nat) : Byte :=
  match btype with
  | 0 => w.extractLsb' (8 * (2 - j)) 8
  | 1 => v.extractLsb' (8 * (1 - j)) 8
  | 2 => v.extractLsb' 8 8
  | _ => v.extractLsb' 0 8

/-- The byte `j` that the next word stored gives Byte Memory. -/
def State.bdmaByte (j : Nat) : Byte :=
  storedByte s.bdma.btype (s.pmIntRead (s.pmDma s.bmovlay s.bdma.biad) (Config.free 24 s.freeCtr .readAbsent 2))
    (s.dmIntRead (s.dmDma s.bmovlay s.bdma.biad) (Config.free 16 s.freeCtr .readAbsent 3)) j

/-- The 16-bit word that is loaded from Byte Memory: two bytes, or one as its upper or its lower half. -/
def State.bdmaHalves : Word :=
  let byte (j : Nat) : Byte := memGet s.mem (s.bdmaPlace j)
  if s.bdma.btype = 1 then byte 0 ++ byte 1 else if s.bdma.btype = 2 then byte 0 ++ 0#8 else 0#8 ++ byte 0

theorem bytes_of_btype (b : Bdma) : b.bytes = [3, 2, 1, 1].getD b.btype 0 := by
  have hlt := btype_lt b
  unfold Bdma.bytes
  generalize b.btype = k at hlt ⊢
  interval_cases k <;> rfl

theorem bytes_pos (b : Bdma) : 0 < b.bytes := by
  unfold Bdma.bytes
  split
  · decide
  · split <;> decide

variable {s} (hin : s.bdma.bmpage * 16384 + s.bdma.bead.toNat + s.bdma.bytes ≤ 4194304)
include hin

theorem place_of_later {j : Nat} (hj : j < s.bdma.bytes) :
    bmPlace (s.bmAddr (s.bdma.byteAddr + BitVec.ofNat 22 j)) = s.bdmaPlace j := bmPlace_byteAddr s (by omega)

theorem place_of_first : bmPlace (s.bmAddr s.bdma.byteAddr) = s.bdmaPlace 0 := by
  have h := place_of_later hin (bytes_pos s.bdma)
  rwa [BitVec.add_zero] at h

/-- A word to Byte Memory: its bytes are written one after another. -/
theorem bdmaMove_store (hd : s.bdma.bdir = true) :
    s.bdmaMove.mem = storeBytes s.mem s.bdmaPlace s.bdmaByte s.bdma.bytes := by
  have hbytes {b : Nat} (h : s.bdma.btype = b) : s.bdma.bytes = [3, 2, 1, 1].getD b 0 := h ▸ bytes_of_btype s.bdma
  have hlt := btype_lt s.bdma
  have hfirst := place_of_first hin
  unfold State.bdmaMove State.bdmaByte
  dsimp only
  rw [if_pos hd]
  obtain h | h | h | h : s.bdma.btype = 0 ∨ s.bdma.btype = 1 ∨ s.bdma.btype = 2 ∨ s.bdma.btype = 3 := by omega
  · have hb : s.bdma.bytes = 3 := hbytes h
    rw [hb, h, storeBytes, storeBytes, storeBytes, storeBytes, ← hfirst, ← place_of_later hin (j := 1) (by omega),
      ← place_of_later hin (j := 2) (by omega)]
    rfl
  · have hb : s.bdma.bytes = 2 := hbytes h
    rw [hb, h, storeBytes, storeBytes, storeBytes, ← hfirst, ← place_of_later hin (j := 1) (by omega)]
    rfl
  all_goals
    have hb : s.bdma.bytes = 1 := hbytes h
    rw [hb, h, storeBytes, storeBytes, ← hfirst]
    rfl

/-- A Program Memory word from Byte Memory. -/
theorem bdmaMove_load_pm (hd : s.bdma.bdir = false) (h : s.bdma.btype = 0) :
    s.bdmaMove = s.pmIntWrite (s.pmDma s.bmovlay s.bdma.biad) (memGet s.mem (s.bdmaPlace 0) ++
      memGet s.mem (s.bdmaPlace 1) ++ memGet s.mem (s.bdmaPlace 2)) := by
  have hb : s.bdma.bytes = 3 := by rw [bytes_of_btype, h]; rfl
  unfold State.bdmaMove
  rw [← place_of_first hin, ← place_of_later hin (j := 1) (by omega), ← place_of_later hin (j := 2) (by omega)]
  dsimp only
  rw [if_neg (by simp [hd]), h]
  rfl

/-- A Data Memory word from Byte Memory. -/
theorem bdmaMove_load_dm (hd : s.bdma.bdir = false) (h : s.bdma.btype ≠ 0) :
    s.bdmaMove = s.dmIntWrite (s.dmDma s.bmovlay s.bdma.biad) s.bdmaHalves := by
  have hlt := btype_lt s.bdma
  unfold State.bdmaMove State.bdmaHalves
  dsimp only
  rw [if_neg (by simp [hd]), ← place_of_first hin]
  obtain h | h | h : s.bdma.btype = 1 ∨ s.bdma.btype = 2 ∨ s.bdma.btype = 3 := by omega
  · have hb : s.bdma.bytes = 2 := by rw [bytes_of_btype, h]; rfl
    rw [← place_of_later hin (j := 1) (by omega), h]
    rfl
  · rw [h]
    rfl
  · rw [h]
    rfl

end

/-! ### The registers after a word -/

section
variable (s : State)

theorem field_eq_extractLsb' {w : Nat} (v : BitVec w) (lo n : Nat) : field v lo n = (v.extractLsb' lo n).toNat := by
  rw [BitVec.extractLsb'_toNat, Nat.shiftRight_eq_div_pow]
  rfl

/-- A word with its upper byte replaced. -/
theorem upperByte_replaced (v : Word) (b : Byte) :
    ((v &&& 0x00FF) ||| (b ++ (0 : Byte))).extractLsb' 8 8 = b ∧
      ∀ k, k < 8 → ((v &&& 0x00FF) ||| (b ++ (0 : Byte))).getLsbD k = v.getLsbD k := by
  refine ⟨BitVec.eq_of_getLsbD_eq fun k hk => ?_, fun k hk => ?_⟩
  · rw [BitVec.getLsbD_extractLsb', BitVec.getLsbD_or, BitVec.getLsbD_and, BitVec.getLsbD_append]
    interval_cases k <;> simp
  · rw [BitVec.getLsbD_or, BitVec.getLsbD_and, BitVec.getLsbD_append]
    interval_cases k <;> simp

/-- BMPAGE and BEAD after a word are the byte address of the next one. -/
theorem bdmaAdvance_address : s.bdmaAdvance.bdma.bmpage * 16384 + s.bdmaAdvance.bdma.bead.toNat =
    (s.bdma.bmpage * 16384 + s.bdma.bead.toNat + s.bdma.bytes) % 4194304 := by
  let a := s.bdma.byteAddr + BitVec.ofNat 22 s.bdma.bytes
  have ha : a.toNat = (s.bdma.bmpage * 16384 + s.bdma.bead.toNat + s.bdma.bytes) % 4194304 := by
    simp only [a, Bdma.byteAddr, BitVec.toNat_add, BitVec.toNat_ofNat]
    omega
  have hbead : s.bdmaAdvance.bdma.bead.toNat = a.toNat % 16384 :=
    (field_eq_extractLsb' a 0 14).symm.trans (congrArg (· % 16384) (Nat.div_one _))
  have hpage : s.bdmaAdvance.bdma.bmpage = a.toNat / 16384 % 256 := by
    have h : s.bdmaAdvance.bdma.bmpage = field (s.bdma.ctl &&& 0x00FF ||| (a.extractLsb' 14 8 ++ (0 : Byte))) 8 8 := rfl
    rw [h, field_eq_extractLsb', (upperByte_replaced _ _).1, ← field_eq_extractLsb']
    rfl
  have hlt := a.isLt
  omega

/-- BCR is not changed by a word. -/
theorem bdmaAdvance_bcr : s.bdmaAdvance.bdma.bcr = s.bdma.bcr := (upperByte_replaced _ _).2 3 (by decide)

/-- A word moved with BWCOUNT 1 is the last. -/
theorem bdmaAdvance_active : s.bdmaAdvance.bdma.active = (s.bdma.bwcount != 1) := by
  have h : s.bdmaAdvance.bdma.active = (s.bdma.bwcount - 1 != 0) := rfl
  rw [h, Bool.eq_iff_iff, bne_iff_ne, bne_iff_ne, sub_ne_zero]

/-- The word moved touches no register, the advance no memory. -/
theorem bdmaAdvance_of_bdmaMove : s.bdmaMove.bdmaAdvance = { s.bdmaAdvance with mem := s.bdmaMove.mem } :=
  congrArg State.bdmaAdvance (bdmaMove_eq s)

/-- The state after a word, before a context reset: with the last word the BDMA interrupt is requested. -/
def State.bdmaMoved : State := State.requestIf { s.bdmaAdvance with mem := s.bdmaMove.mem } (s.bdma.bwcount == 1) 3

/-- The state after a word. -/
def State.bdmaDone : State := if s.bdma.bcr = true ∧ s.bdma.bwcount = 1 then s.bdmaMoved.contextReset else s.bdmaMoved

theorem bdmaMoved_eq : s.bdmaMoved =
    { s with mem := s.bdmaMove.mem, bdma := s.bdmaAdvance.bdma, irq := { s.irq with latch := s.bdmaMoved.irq.latch } } :=
  requestIf_eq _ _ _

theorem bdmaWord_eq (h : s.bdma.bcr = true → s.bdma.bcrStart = true) : s.bdmaWord = .next s.bdmaDone := by
  have hbcr : s.bdmaMoved.bdma.bcr = s.bdma.bcr := by rw [bdmaMoved_eq]; exact bdmaAdvance_bcr s
  have hstart : ¬(s.bdma.bcr && !s.bdma.bcrStart) = true := by simpa using h
  unfold State.bdmaWord
  rw [if_neg hstart, bdmaAdvance_of_bdmaMove]
  dsimp only
  rw [bdmaAdvance_active]
  unfold State.bdmaDone
  by_cases hc : s.bdma.bwcount = 1
  · have hlast : s.bdmaMoved = State.setLatch { s.bdmaAdvance with mem := s.bdmaMove.mem } 3 := by
      unfold State.bdmaMoved
      rw [hc]
      rfl
    rw [if_neg (by simp [hc]), ← hlast, hbcr]
    simp [hc]
  · have hmore : s.bdmaMoved = { s.bdmaAdvance with mem := s.bdmaMove.mem } := by
      unfold State.bdmaMoved
      rw [beq_false_of_ne hc]
      rfl
    rw [if_pos (by simpa using hc), if_neg (fun hl => hc hl.2), hmore]

/-- A context reset leaves memory, the BDMA registers, the request latches, the computational registers and the DAG registers. -/
theorem bdmaDone_kept : s.bdmaDone.mem = s.bdmaMove.mem ∧ s.bdmaDone.bdma = s.bdmaAdvance.bdma ∧
    s.bdmaDone.irq.latch = s.bdmaMoved.irq.latch ∧ s.bdmaDone.pri = s.pri ∧ s.bdmaDone.sec = s.sec ∧ s.bdmaDone.dag = s.dag := by
  have h := bdmaMoved_eq s
  have hkept : s.bdmaMoved.mem = s.bdmaMove.mem ∧ s.bdmaMoved.bdma = s.bdmaAdvance.bdma ∧
      s.bdmaMoved.irq.latch = s.bdmaMoved.irq.latch ∧ s.bdmaMoved.pri = s.pri ∧ s.bdmaMoved.sec = s.sec ∧
      s.bdmaMoved.dag = s.dag := by
    rw [h]
    exact ⟨rfl, rfl, rfl, rfl, rfl, rfl⟩
  unfold State.bdmaDone
  split
  · exact hkept
  · exact hkept

/-- The last word with BCR 1 resets the context; another leaves the control state. -/
theorem bdmaDone_context : if s.bdma.bcr = true ∧ s.bdma.bwcount = 1 then
      s.bdmaDone.seq = s.contextReset.seq ∧ s.bdmaDone.st = s.contextReset.st ∧ s.bdmaDone.core = .running
    else s.bdmaDone.seq = s.seq ∧ s.bdmaDone.st = s.st ∧ s.bdmaDone.core = s.core := by
  have h := bdmaMoved_eq s
  unfold State.bdmaDone
  split
  · rw [h]
    exact ⟨rfl, rfl, rfl⟩
  · rw [h]
    exact ⟨rfl, rfl, rfl⟩

theorem bdmaDone_latch : s.bdmaDone.irq.latch.getLsbD 3 = (s.irq.latch.getLsbD 3 || s.bdma.bwcount == 1) := by
  obtain ⟨-, -, hlatch, -⟩ := bdmaDone_kept s
  rw [hlatch, State.bdmaMoved, requestIf_latch _ _ (by decide)]
  simp [State.bdmaAdvance]

end

/-! ### Memory after a word -/

section
variable {s t : State} (hwf : Memory.wf s.mem = true)
  (hin : s.bdma.bmpage * 16384 + s.bdma.bead.toNat + s.bdma.bytes ≤ 4194304) (ht : t.mem = s.bdmaMove.mem)
include hin ht

section
variable (hd : s.bdma.bdir = false)
include hd

theorem bdma_lost_pm (h : s.bdma.btype = 0) (hl : s.pmDma s.bmovlay s.bdma.biad = none) : SameMem s t := by
  rw [bdmaMove_load_pm hin hd h, hl] at ht
  exact fun a => congrArg (memGet · a) ht

theorem bdma_lost_dm (h : s.bdma.btype ≠ 0) (hl : s.dmDma s.bmovlay s.bdma.biad = none) : SameMem s t := by
  rw [bdmaMove_load_dm hin hd h, hl] at ht
  exact fun a => congrArg (memGet · a) ht

include hwf

theorem bdma_loads_pm (h : s.bdma.btype = 0) {l : Loc} (hl : s.pmDma s.bmovlay s.bdma.biad = some l) :
    SameMemBut s t l.base 3 ∧ memGet24 t.mem l.base = memGet s.mem (s.bdmaPlace 0) ++ memGet s.mem (s.bdmaPlace 1) ++
      memGet s.mem (s.bdmaPlace 2) := by
  rw [bdmaMove_load_pm hin hd h, hl] at ht
  exact (pmIntWrite_stored hwf ht).symm

theorem bdma_loads_dm (h : s.bdma.btype ≠ 0) {l : Loc} (hl : s.dmDma s.bmovlay s.bdma.biad = some l) :
    SameMemBut s t l.base 2 ∧ memGet16 t.mem l.base = s.bdmaHalves := by
  rw [bdmaMove_load_dm hin hd h, hl] at ht
  exact (dmIntWrite_stored hwf ht).symm

end

variable (hd : s.bdma.bdir = true)
include hd

/-- A word to Byte Memory is written to the places of its bytes alone. -/
theorem bdma_stores_other {a : Nat} (ha : ∀ j, j < s.bdma.bytes → a ≠ s.bdmaPlace j) : memGet t.mem a = memGet s.mem a := by
  rw [ht, bdmaMove_store hin hd]
  exact memGet_storeBytes_other ha

include hwf

/-- A byte is at its place, where no later one went to the same place. -/
theorem bdma_stores_self {j : Nat} (hj : j < s.bdma.bytes)
    (h : ∀ k, j < k → k < s.bdma.bytes → s.bdmaPlace k ≠ s.bdmaPlace j) : memGet t.mem (s.bdmaPlace j) = s.bdmaByte j := by
  rw [ht, bdmaMove_store hin hd]
  exact memGet_storeBytes_self hwf hj h

theorem bdma_stores_last {j : Nat} (hj : s.bdma.bytes = j + 1) : memGet t.mem (s.bdmaPlace j) = s.bdmaByte j :=
  bdma_stores_self hwf hin ht hd (by omega) fun k hjk hk => by omega

theorem bdma_stores_beforeLast {j : Nat} (hj : s.bdma.bytes = j + 2) : memGet t.mem (s.bdmaPlace j) = s.bdmaByte j := by
  refine bdma_stores_self hwf hin ht hd (by omega) fun k hjk hk => ?_
  obtain rfl : k = j + 1 := by omega
  exact bdmaPlace_next s j

/-- A Program Memory word to Byte Memory; in Host Memory Mode its first and its last byte have the same place. -/
theorem bdma_stores_pm (h : s.bdma.btype = 0) {l : Loc} (hl : s.pmDma s.bmovlay s.bdma.biad = some l) :
    (s.hostMode = false → memGet t.mem (s.bdmaPlace 0) = (memGet24 s.mem l.base).extractLsb' 16 8) ∧
      memGet t.mem (s.bdmaPlace 1) = (memGet24 s.mem l.base).extractLsb' 8 8 ∧
      memGet t.mem (s.bdmaPlace 2) = (memGet24 s.mem l.base).extractLsb' 0 8 := by
  have hb : s.bdma.bytes = 3 := by rw [bytes_of_btype, h]; rfl
  have hbyte (j : Nat) : s.bdmaByte j = (memGet24 s.mem l.base).extractLsb' (8 * (2 - j)) 8 := by
    rw [State.bdmaByte, h, hl]
    rfl
  refine ⟨fun hm => ?_, ?_, ?_⟩
  · rw [bdma_stores_self hwf hin ht hd (by omega) fun k hk _ => bdmaPlace_injective s hm hk, hbyte]
  · rw [bdma_stores_beforeLast hwf hin ht hd hb, hbyte]
  · rw [bdma_stores_last hwf hin ht hd hb, hbyte]

/-- A Data Memory word, or one half of it, to Byte Memory. -/
theorem bdma_stores_dm {l : Loc} (hl : s.dmDma s.bmovlay s.bdma.biad = some l) :
    (s.bdma.btype = 1 → memGet t.mem (s.bdmaPlace 0) ++ memGet t.mem (s.bdmaPlace 1) = memGet16 s.mem l.base) ∧
      (s.bdma.btype = 2 → memGet t.mem (s.bdmaPlace 0) = (memGet16 s.mem l.base).extractLsb' 8 8) ∧
      (s.bdma.btype = 3 → memGet t.mem (s.bdmaPlace 0) = (memGet16 s.mem l.base).extractLsb' 0 8) := by
  have hbytes {b : Nat} (h : s.bdma.btype = b) : s.bdma.bytes = [3, 2, 1, 1].getD b 0 := h ▸ bytes_of_btype s.bdma
  have hbyte (j : Nat) : s.bdmaByte j = storedByte s.bdma.btype
      (s.pmIntRead (s.pmDma s.bmovlay s.bdma.biad) (Config.free 24 s.freeCtr .readAbsent 2)) (memGet16 s.mem l.base) j := by
    rw [State.bdmaByte, hl]
    rfl
  refine ⟨fun h => ?_, fun h => ?_, fun h => ?_⟩
  · rw [bdma_stores_beforeLast hwf hin ht hd (hbytes h), bdma_stores_last hwf hin ht hd (hbytes h), hbyte, hbyte, h]
    exact append_bytes _
  · rw [bdma_stores_last hwf hin ht hd (hbytes h), hbyte, h]
    rfl
  · rw [bdma_stores_last hwf hin ht hd (hbytes h), hbyte, h]
    rfl

end

/-! ### The obligation -/

/-- Settles O58: the state after a word is `bdmaDone`, whose memory is that of the word moved; that is the word loaded, or the
bytes stored, at the places of R118 in Host Memory Mode. -/
theorem bdmaWord : Obligations.BdmaWord := by
  unfold Obligations.BdmaWord
  refine ⟨fun s b rest he => ⟨_, step_busRequest he, rfl, ?_⟩, fun s hwf hbcr hin => ?_⟩
  · rw [← byteLeft_zero_iff]
    exact busRequestEvent_bg b
  · obtain ⟨hmem, hbdma, -, hregs⟩ := bdmaDone_kept s
    refine ⟨s.bdmaDone, bdmaWord_eq s hbcr,
      fun hd h => ⟨bdma_lost_pm hin hmem hd h, fun l => bdma_loads_pm hwf hin hmem hd h⟩,
      fun hd h => ⟨bdma_lost_dm hin hmem hd h, fun l => bdma_loads_dm hwf hin hmem hd h⟩,
      fun hd a => bdma_stores_other hin hmem hd,
      fun hd h l => bdma_stores_pm hwf hin hmem hd h,
      fun hd l => bdma_stores_dm hwf hin hmem hd,
      congrArg Bdma.biad hbdma, congrArg Bdma.bwcount hbdma, ?_, ?_, bdmaDone_latch s, hregs, bdmaDone_context s⟩
    · rw [hbdma, bdmaAdvance_active]
    · rw [hbdma, bdmaAdvance_address, Nat.mod_mod]

end Sys2Proof.Machine
end
